-- ==== Sys2Proof/Word.lean ====
section
/-! DEFINITION. The word types of the PF6410: the byte of the host link, the flash port and the counter line, and the
16-bit numbers that wrap (00_scope "Wrapping counters"). -/

namespace Sys2Proof

/-- A byte of a frame, of the flash port or of the counter line. -/
abbrev Byte := BitVec 8

/-- A 16-bit number that wraps after 65535: condition epoch, site generation, running check (00_scope, R13, R158). -/
abbrev Word16 := BitVec 16

end Sys2Proof
end

