-- ==== Sys2Proof/Config.lean ====
section
/-! DEFINITION. The capacities the manual fixes for the PF6410. The spec leaves no value to the implementation, so no
constant without a body stands here (NOTES.md, "Free values"). -/

namespace Sys2Proof.Config

/-- Screens 0-63 (R9, R85). -/
abbrev screens : Nat := 64
/-- Gates 0-63 (R7). -/
abbrev gates : Nat := 64
/-- Walker profiles 0-7 (R8). -/
abbrev profiles : Nat := 8
/-- Flow channels 0-63 (R10). -/
abbrev channels : Nat := 64
/-- Search lanes SL0 to SL3 (R41). -/
abbrev lanes : Nat := 4
/-- Result slots 0-47 (R76). -/
abbrev slots : Nat := 48
/-- The node index range of the label table (R44). -/
abbrev nodes : Nat := 2048
/-- Entries of a lane's frontier heap (R45). -/
abbrev heapEntries : Nat := 512
/-- Entries of the request queue (R90). -/
abbrev queueEntries : Nat := 32
/-- Entries of the pending list (R104). -/
abbrev pendingEdits : Nat := 64
/-- Entries of the notice queue (R175). -/
abbrev noticeEntries : Nat := 48
/-- A reply queue holding this many entries takes no further frame (R169). -/
abbrev replyRoom : Nat := 7
/-- The most entries of the reply queue, a busy run being the last (R169). -/
abbrev replyEntries : Nat := 8
/-- The most replies one busy run stands for (R169). -/
abbrev busyRunMost : Nat := 65535
/-- The longest payload of a frame, in bytes (R168). -/
abbrev payloadBytes : Nat := 1024
/-- The most legs of a record (R72). -/
abbrev legs : Nat := 40
/-- The passes that give a waiting request priority 3 (R91). -/
abbrev passesMost : Nat := 8
/-- The size of the flash address space, in bytes (R158). -/
abbrev flashBytes : Nat := 16777216
/-- The bytes of one flash sector (R158). -/
abbrev sectorBytes : Nat := 4096
/-- The bytes of one flash page (R158). -/
abbrev pageBytes : Nat := 256
/-- The bytes of a site image header (R160). -/
abbrev headerBytes : Nat := 32
/-- The notice-queue length from which the ALERT source NOTICE_BACKLOG holds (R177). -/
abbrev backlog : Nat := 24
/-- The largest value of F, L and Act, in sixteenths (R117). -/
abbrev flowMost : Int := 16368

end Sys2Proof.Config
end

