-- ==== Sys2Proof/Syntax.lean ====
section
/-! DEFINITION. The commands of the PF6410: one constructor for each row of spec/opcode_table.json, in the table's order.

A REQUEST row (ACK_START to EGRESS_RESUME) is a whole frame of that kind, carrying the payload bytes of R179, whose check
is right: the receiver judges it, and the payload length is judged with it (R168). The other rows are events of the part
itself, of its pins, of the flash, of the counter heads and of its timers, with the operands the rule of the row names. -/

namespace Sys2Proof

/-- One constructor per row of spec/opcode_table.json (95_what_each_step_holds: each step whole and indivisible). -/
inductive Instr where
  /-- R23: RESET is released (or power applied) with these strap levels and this level on the ALARM pin (R157). -/
  | powerOnReset (rate : BitVec 2) (bootld alarm : Bool)
  | ackStart (payload : List Byte)
  | status (payload : List Byte)
  | softReset (payload : List Byte)
  /-- R172: the last byte of the SOFT RESET's OK reply has been sent. -/
  | softResetEffect
  | setParam (payload : List Byte)
  | getParam (payload : List Byte)
  | siteOpen (payload : List Byte)
  | siteClose (payload : List Byte)
  | tableWrite (payload : List Byte)
  | tableRead (payload : List Byte)
  | siteLoad (payload : List Byte)
  | siteDump (payload : List Byte)
  | condition (payload : List Byte)
  | conditionRead (payload : List Byte)
  | turnNow (payload : List Byte)
  | setClock (payload : List Byte)
  | route (payload : List Byte)
  | cancel (payload : List Byte)
  | collect (payload : List Byte)
  | screenState (payload : List Byte)
  | flowRead (payload : List Byte)
  | egressEnter (payload : List Byte)
  | egressResume (payload : List Byte)
  /-- R149: the ALARM pin changes its level. -/
  | alarmPinChange
  /-- R149: the pin has held high for 30 ms. -/
  | alarmAsserted
  /-- R153: the pin has held low for 30 ms. -/
  | alarmClear
  /-- R168: a whole frame, given as its bytes from the length to the check, whose sum is not 0. -/
  | badCheck (bytes : List Byte)
  /-- R168: a whole frame, its check right, of a kind that is no request kind. -/
  | unknownKind (kind : Byte)
  /-- R168: the two length bytes of a frame state this length. -/
  | badLength (length : BitVec 16)
  /-- R168: more than 20 ms between two bytes of a frame; the late byte, if one has come, is judged in HUNT. -/
  | frameTimeout (late : Option Byte)
  /-- R169: a frame is judged while the reply queue takes none. -/
  | linkBusy
  /-- R170: the transmitter finishes a frame, or is idle, and chooses the next. -/
  | frameBoundary
  | startRepeatTimerExpiry
  | grant
  /-- R60: this lane finishes its search, rebuilding and legs. -/
  | recordComplete (lane : Fin 4)
  | slotGrant
  /-- R81: this slot's hold timer runs out. -/
  | holdTimerExpiry (slot : Fin 48)
  | drainEnd
  | turnTimerExpiry
  | applyStep
  | tick
  | minuteBoundary
  | sampleTimerExpiry
  | pollSent
  /-- R121: the first 5 bytes received within the 8 ms, in the order received. -/
  | counterReply (b0 b1 b2 b3 b4 : Byte)
  | replyTimeout
  | busyClear
  | flashTimeout
  /-- R160: the 32 header bytes have been read. -/
  | headerRead (bytes : List Byte)
  /-- R161: a record's bytes are complete. -/
  | recordRead (bytes : List Byte)
  /-- R177: the RESET pin is asserted with these strap levels. -/
  | resetAsserted (rate : BitVec 2) (bootld : Bool)
  /-- R168: the receiver takes the byte A5h, in HUNT as SYNC, and these bytes of the frame that have come after it, before
  the byte with which the frame is judged, which is of the row that judges it. Where none is given, A5h alone. -/
  | sync (bytes : List Byte := [])
  deriving DecidableEq, Repr

end Sys2Proof
end

