-- ==== Sys2Proof/WellFormed.lean ====
section
/-! DEFINITION. What the operands of a command must satisfy to be a command of its row at all: a request payload fits a
frame, the event rows carry what their row's name says of them. `exec` is total and does not rest on it. -/

namespace Sys2Proof

/-- The sum of bytes modulo 256 (R168). -/
def byteSum (bytes : List Byte) : Byte := bytes.foldl (· + ·) 0

/-- A payload is at most 1024 bytes (R168: a longer length field is BAD_LENGTH's row). -/
def payloadFits (payload : List Byte) : Bool := payload.length ≤ Config.payloadBytes

/-- The bytes of a whole frame from its length to its check: the length states the payload's bytes (R168, R179). -/
def wholeFrame (bytes : List Byte) : Bool :=
  match bytes with
  | lo :: hi :: rest => rest.length = lo.toNat + 256 * hi.toNat + 2 && rest.length ≤ Config.payloadBytes + 2
  | _ => false

/-- Kinds 01h-16h are the request kinds (R179). -/
def isRequestKind (kind : Byte) : Bool := 1 ≤ kind.toNat && kind.toNat ≤ 22

/-- The operands are ones the row's event can have. -/
def Instr.wellFormed : Instr → Bool
  | .powerOnReset _ _ _ => true
  | .ackStart p => payloadFits p
  | .status p => payloadFits p
  | .softReset p => payloadFits p
  | .softResetEffect => true
  | .setParam p => payloadFits p
  | .getParam p => payloadFits p
  | .siteOpen p => payloadFits p
  | .siteClose p => payloadFits p
  | .tableWrite p => payloadFits p
  | .tableRead p => payloadFits p
  | .siteLoad p => payloadFits p
  | .siteDump p => payloadFits p
  | .condition p => payloadFits p
  | .conditionRead p => payloadFits p
  | .turnNow p => payloadFits p
  | .setClock p => payloadFits p
  | .route p => payloadFits p
  | .cancel p => payloadFits p
  | .collect p => payloadFits p
  | .screenState p => payloadFits p
  | .flowRead p => payloadFits p
  | .egressEnter p => payloadFits p
  | .egressResume p => payloadFits p
  | .alarmPinChange => true
  | .alarmAsserted => true
  | .alarmClear => true
  | .badCheck bytes => wholeFrame bytes && byteSum bytes ≠ 0
  | .unknownKind kind => !isRequestKind kind
  | .badLength length => Config.payloadBytes < length.toNat
  | .frameTimeout _ => true
  | .linkBusy => true
  | .frameBoundary => true
  | .startRepeatTimerExpiry => true
  | .grant => true
  | .recordComplete _ => true
  | .slotGrant => true
  | .holdTimerExpiry _ => true
  | .drainEnd => true
  | .turnTimerExpiry => true
  | .applyStep => true
  | .tick => true
  | .minuteBoundary => true
  | .sampleTimerExpiry => true
  | .pollSent => true
  | .counterReply _ _ _ _ _ => true
  | .replyTimeout => true
  | .busyClear => true
  | .flashTimeout => true
  | .headerRead bytes => bytes.length = Config.headerBytes
  | .recordRead bytes => bytes.length ∈ [4, 8, 12, 20, 32]
  | .resetAsserted _ _ => true
  | .sync bytes => bytes.length ≤ Config.payloadBytes + 3

end Sys2Proof
end

