-- ==== Sys2Proof/Decode.lean ====
section
/-! DEFINITION. The decoder of table words. No row of spec/opcode_table.json gives its command any bits ("fields" is
empty and no row has "fixed"), so no word spells a command by the table, and the host asks of a block nothing else of
this file. What R179 gives the commands in bytes is read in Machine/Operands.lean. -/

namespace Sys2Proof

/-- The command a word of `nbits` bits spells by spec/opcode_table.json: none, because the table gives no row bits. -/
def decodeTableWord (_nbits _w : Nat) : Option Instr := none

end Sys2Proof
end

