-- ==== Sys2Proof/Machine/Bytes.lean ====
section
/-! DEFINITION. Byte order and absence: numbers are little-endian, an absent field is all ones (R179). -/

namespace Sys2Proof.Machine

/-- A number in one byte (R179). -/
def le8 (n : Nat) : List Byte := [BitVec.ofNat 8 n]

/-- A number in two bytes, the lower byte first (R179). -/
def le16 (n : Nat) : List Byte := [BitVec.ofNat 8 n, BitVec.ofNat 8 (n / 256)]

/-- A number in four bytes, the lowest byte first (R179). -/
def le32 (n : Nat) : List Byte :=
  [BitVec.ofNat 8 n, BitVec.ofNat 8 (n / 256), BitVec.ofNat 8 (n / 65536), BitVec.ofNat 8 (n / 16777216)]

/-- A signed number in two bytes, two's complement (R179). -/
def leInt16 (z : Int) : List Byte := le16 (z % 65536).toNat

/-- An optional one-byte field: FFh when absent (R179). -/
def opt8 (o : Option Nat) : List Byte := le8 (o.getD 0xFF)

/-- An optional two-byte field: FFFFh when absent (R179). -/
def opt16 (o : Option Nat) : List Byte := le16 (o.getD 0xFFFF)

/-- An optional four-byte field: FFFFFFFFh when absent (R179). -/
def opt32 (o : Option Nat) : List Byte := le32 (o.getD 0xFFFFFFFF)

/-- The number that bytes stand for, the lowest byte first (R179). -/
def ofLe : List Byte → Nat
  | [] => 0
  | b :: bytes => b.toNat + 256 * ofLe bytes

/-- The byte at an offset of a payload. -/
def byteAt (bytes : List Byte) (offset : Nat) : Nat := ofLe ((bytes.drop offset).take 1)

/-- The two-byte number at an offset of a payload. -/
def wordAt (bytes : List Byte) (offset : Nat) : Nat := ofLe ((bytes.drop offset).take 2)

/-- The four-byte number at an offset of a payload. -/
def longAt (bytes : List Byte) (offset : Nat) : Nat := ofLe ((bytes.drop offset).take 4)

/-- The sum of bytes modulo 65536 added to a running check (R161, R164). -/
def addToCheck (check : Word16) (bytes : List Byte) : Word16 :=
  bytes.foldl (fun c b => c + BitVec.ofNat 16 b.toNat) check

/-- The check byte that makes these bytes and itself sum to 0 modulo 256 (R179). -/
def checkByte (bytes : List Byte) : Byte := 0 - bytes.foldl (· + ·) 0

/-- Bytes cut into pieces of `size`, the last one perhaps shorter. -/
def chunks (size : Nat) : Nat → List Byte → List (List Byte)
  | 0, _ => []
  | count + 1, bytes => bytes.take size :: chunks size count (bytes.drop size)

end Sys2Proof.Machine
end

