-- ==== Sys2Proof/Machine/State.lean ====
section
/-! DEFINITION. The state of the PF6410, block by block as the spec gives it, plain data throughout.

An indexed table is a sparse list: an index that is not listed reads as the table's cleared entry (R23, R65, R116, R137),
the operations of Machine/Ops.lean keep the list in one canonical form (`Table.wf`), and so equal tables are equal data.
Nat fields hold the numbers the manual counts; their ranges stand beside them. -/

namespace Sys2Proof.Machine

/-- A table kept as (index, entry) pairs, indices strictly rising, no entry equal to the cleared one. -/
abbrev Table (α : Type) := List (Nat × α)

/-! ### The site tables (R1 to R12) -/

/-- R179's table numbers 0 to 11, in validation order after the header. -/
inductive TableId where
  | header | nodes | edges | adjacency | groups | members | directory | gates | profiles | screens | channels | schedule
  deriving DecidableEq, Repr

/-- R12: the site header. -/
structure Header where
  nodeCount : Nat        -- 0-2048
  edgeCount : Nat        -- 0-4096
  adjacencyCount : Nat   -- 0-8192
  groupCount : Nat       -- 0-256
  memberCount : Nat      -- 0-2048
  directoryCount : Nat   -- 0-1024
  scheduleCount : Nat    -- 0-128
  exitGroup : Nat        -- 0-255
  fBusy : Nat            -- 16-255 sixteenths
  fCrowded : Nat
  fUnknown : Nat
  deriving DecidableEq, Repr

/-- R2: a node. -/
structure Node where
  floor : Nat                -- 0-15
  landmark : Option Nat      -- 0-1023
  adjacencyStart : Nat       -- 0-8191
  adjacencyCount : Nat       -- 0-8
  deriving DecidableEq, Repr

/-- R3: the classes of an edge. -/
inductive EdgeClass where
  | walk | door | stairs | escalator | travelator | elevator
  deriving DecidableEq, Repr

/-- R3: the direction mode of an edge record. -/
inductive DirectionMode where
  | runAB | runBA | stopped | both
  deriving DecidableEq, Repr

/-- R3: an edge. `heading` none is V. -/
structure Edge where
  a : Nat                    -- 0-2047
  b : Nat                    -- 0-2047
  cls : EdgeClass
  length : Nat               -- 0-4095 dm
  heading : Option Nat       -- 0-7, none for V
  direction : DirectionMode
  rideCode : Nat             -- 0-15
  gate : Option Nat          -- 0-63
  channel : Option Nat       -- 0-63
  closedByDefault : Bool
  deriving DecidableEq, Repr

/-- R6: the selection mode of a group. -/
inductive Selection where
  | nearest | firstOpen
  deriving DecidableEq, Repr

/-- R6: a group. -/
structure Group where
  selection : Selection
  memberStart : Nat          -- 0-2047
  memberCount : Nat          -- 1-16
  deriving DecidableEq, Repr

/-- R6: a member. -/
structure Member where
  node : Nat                 -- 0-2047
  gate : Option Nat          -- 0-63
  deriving DecidableEq, Repr

/-- R7: the kind of a directory entry. -/
inductive DirectoryKind where
  | unused | direct | group
  deriving DecidableEq, Repr

/-- R7: a directory entry. `ref` is the node, the group, or stored and not used. -/
structure DirectoryEntry where
  kind : DirectoryKind
  ref : Nat
  category : Nat             -- 0-63
  ownGate : Option Nat       -- 0-63
  deriving DecidableEq, Repr

/-- R7, R27: OPEN or CLOSED, of an edge closure or a gate. -/
inductive Closure where
  | opened | closed
  deriving DecidableEq, Repr

/-- R8: a walker profile. -/
structure Profile where
  pace : Nat                 -- 40-200 cm/s
  stairs : Bool              -- the allowed classes
  escalator : Bool
  travelator : Bool
  elevator : Bool
  stairFactor : Nat          -- 16-64 sixteenths
  liftWait : Nat             -- 0-1200 ds
  aversion : Nat             -- 0-4
  deriving DecidableEq, Repr

/-- R9: a screen record. -/
structure Screen where
  enabled : Bool
  node : Nat                 -- 0-2047
  facing : Nat               -- 0-7
  profile : Nat              -- 0-7
  priority : Nat             -- 0-3
  deriving DecidableEq, Repr

/-- R10: the role of a flow channel. -/
inductive Role where
  | independent | reference | follower
  deriving DecidableEq, Repr

/-- R10: a flow channel's configuration record. -/
structure ChannelConfig where
  enabled : Bool
  role : Role
  reference : Nat            -- 0-63
  weight : Nat               -- wf, 0-8191
  busy : Nat                 -- Tb, 1-1023
  crowded : Nat              -- Tc, Tb-1023
  hysteresis : Nat           -- h, 0 to Tb - 1
  ceiling : Nat              -- A, 1-1023
  debounce : Nat             -- n, 1-8
  filterShift : Nat          -- 0-7
  averageShift : Nat         -- 2-12
  activationShift : Nat      -- 0-7
  settleBand : Nat           -- 0-255
  plateauSamples : Nat       -- 0-255
  staleLimit : Nat           -- 1-15
  deriving DecidableEq, Repr

/-- R4: the motion mode of a moving edge. -/
inductive Motion where
  | runAB | runBA | stopped
  deriving DecidableEq, Repr

/-- R11, R103: the kinds of target of a condition edit. -/
inductive TargetKind where
  | edge | motion | gate
  deriving DecidableEq, Repr

/-- R103: a target is the pair of kind and index. -/
structure Target where
  kind : TargetKind
  index : Nat
  deriving DecidableEq, Repr

/-- R11, R103: the value of an edit: a closure for EDGE and GATE, a motion for MOTION. -/
inductive Setting where
  | closure (c : Closure)
  | motion (m : Motion)
  deriving DecidableEq, Repr

/-- R11: a schedule entry. Bit d of `days` is day d. -/
structure ScheduleEntry where
  enabled : Bool
  minute : Nat               -- 0-1439
  days : BitVec 7
  target : Target
  value : Setting
  deriving DecidableEq, Repr

/-- R13: the six site states. -/
inductive SiteState where
  | empty | loading | valid | draining | editing | invalid
  deriving DecidableEq, Repr

/-- R14, R15: what a drain waits to do. The address of a pending load waits with the Site Store (R159). -/
inductive Drain where
  | openSession
  | load (address : Nat)
  deriving DecidableEq, Repr

/-- The Site Store: the twelve tables, the site state and generation, and the drain's pending open or load. -/
structure SiteStore where
  header : Header
  nodes : Table Node
  edges : Table Edge
  adjacency : Table Nat
  groups : Table Group
  members : Table Member
  directory : Table DirectoryEntry
  gates : Table Closure
  profiles : Table Profile
  screens : Table Screen
  channels : Table ChannelConfig
  schedule : Table ScheduleEntry
  state : SiteState
  generation : Word16
  drain : Option Drain
  deriving DecidableEq, Repr

/-! ### Site Transfer Unit (R158 to R167) -/

/-- R158: the transfer states. -/
inductive TransferState where
  | idle | readyWait | readHeader | readTables | validate | erase | program
  deriving DecidableEq, Repr

/-- R158: the operation of a transfer. -/
inductive Operation where
  | load | dump
  deriving DecidableEq, Repr

/-- R20, R123, R160: the check codes. -/
inductive CheckCode where
  | N1 | E1 | E2 | E3 | E4 | E5 | A1 | A2 | G1 | G2 | G3 | M1 | D1 | P1 | S1 | F1 | F2 | F3 | F4 | C1 | C2
  | H1 | H2 | H3 | H4 | H5
  deriving DecidableEq, Repr

/-- R20: the first failure of a validation. -/
structure Failure where
  table : TableId
  index : Nat
  code : CheckCode
  deriving DecidableEq, Repr

/-- R166: the outcome of a transfer with its detail. `written` is a dump's, `valid` to `invalid` are a load's. -/
inductive TransferOutcome where
  | valid
  | badHeader (code : CheckCode)
  | badRecord (table : TableId) (index : Nat)
  | checkMismatch (computed expected : Word16)
  | invalid (failure : Failure)
  | written
  | flashTimeout (reached : TransferState) (address : Nat)
  deriving DecidableEq, Repr

/-- R158: the commands the unit sends on the flash port. -/
inductive FlashCommand where
  | read (address : Nat)
  | writeEnable
  | sectorErase (address : Nat)
  | pageProgram (address : Nat) (bytes : List Byte)
  | readStatus
  deriving DecidableEq, Repr

/-- The Site Transfer Unit. `sent` lists the commands the unit has sent on the flash port in its latest step, the last
one being the one it holds FCS low for. `expected` is the check a load's header carries (R160, R161). -/
structure TransferUnit where
  state : TransferState
  operation : Option Operation
  address : Option Nat
  imageLength : Option Nat
  check : Word16
  expected : Word16
  offset : Nat
  position : Option (TableId × Nat)
  sent : List FlashCommand
  last : Option (Operation × TransferOutcome)
  deriving DecidableEq, Repr

/-! ### Condition Unit (R101 to R116) -/

/-- R101, R117: the flow levels. -/
inductive Level where
  | clear | busy | crowded | unknown | off
  deriving DecidableEq, Repr

/-- R104: the source of an edit. -/
inductive Source where
  | host
  | schedule (entry : Nat)
  deriving DecidableEq, Repr

/-- R104: an entry of the pending list. -/
structure Edit where
  target : Target
  value : Setting
  source : Source
  deriving DecidableEq, Repr

/-- R112: the cause of a turn. -/
inductive TurnCause where
  | timer | request | schedule | site
  deriving DecidableEq, Repr

/-- R107: the turn state, with the cause of the turn that waits. -/
inductive TurnState where
  | idle
  | waiting (cause : TurnCause)
  deriving DecidableEq, Repr

/-- The Condition Unit. A running turn timer is the number of seconds it was started with (R108). -/
structure ConditionUnit where
  closures : Table Closure
  motions : Table (Option Motion)
  gates : Table Closure
  levels : Table Level
  edits : List Edit
  epoch : Word16
  turn : TurnState
  timer : Option Nat
  deriving DecidableEq, Repr

/-! ### Schedule Unit (R138 to R148) -/

/-- The Schedule Unit. `boundaryDue` says that a tick has made a minute boundary that is not yet served (R138, R140). -/
structure ScheduleUnit where
  clockSet : Bool
  second : Nat               -- 0-86399
  day : Nat                  -- 0-6
  late : List Nat            -- the LATE list, in its order
  boundaryDue : Bool
  deriving DecidableEq, Repr

/-! ### Flow Monitor (R117 to R137) -/

/-- R118: the channel states. -/
inductive ChannelState where
  | off | seeding | tracking | stale
  deriving DecidableEq, Repr

/-- R117: what the Flow Monitor holds for a channel. F, L, Act and the change of L are in sixteenths. -/
structure Channel where
  state : ChannelState
  level : Level
  filter : Int
  average : Int
  activation : Int
  debounce : Nat
  plateau : Nat
  missed : Nat
  change : Int
  lastCount : Option Nat
  deriving DecidableEq, Repr

/-- R120: where the poll of the current channel stands: CLDE asserted, or listening. -/
inductive PollPhase where
  | sending | listening
  deriving DecidableEq, Repr

/-- R120: a poll cycle: the channel being polled, those still to poll, and the samples kept (none is a missed one). -/
structure PollCycle where
  current : Nat
  phase : PollPhase
  rest : List Nat
  samples : List (Nat × Option Nat)
  deriving DecidableEq, Repr

/-- The Flow Monitor. A running sample timer is the number of seconds it was started with (R119). -/
structure FlowMonitor where
  channels : Table Channel
  timer : Option Nat
  cycle : Option PollCycle
  deriving DecidableEq, Repr

/-! ### Request Dispatcher (R85 to R100) -/

/-- R43, R87: a route request with its pass count. `choice` none is the screen default. -/
structure Request where
  screen : Nat
  destination : Nat
  choice : Option Nat
  tag : Nat
  assist : Bool
  passes : Nat
  deriving DecidableEq, Repr

/-- R89: an entry of the request queue. -/
structure QueueEntry where
  request : Request
  egressMark : Bool
  deriving DecidableEq, Repr

/-- R85: the state of a screen, with its lane or its slot. -/
inductive ScreenStatus where
  | idle
  | queued
  | active (lane : Nat)
  | ready (slot : Nat)
  deriving DecidableEq, Repr

/-- The Request Dispatcher. -/
structure RequestDispatcher where
  screens : Table ScreenStatus
  queue : List QueueEntry
  deriving DecidableEq, Repr

/-! ### Search Lanes (R41 to R66) and records (R67 to R75) -/

/-- R150: the operating mode. -/
inductive Mode where
  | normal | egress
  deriving DecidableEq, Repr

/-- R41: the lane states. -/
inductive LaneState where
  | free | searching | holding
  deriving DecidableEq, Repr

/-- R43: what a lane takes at grant, beside the request. -/
structure SearchContext where
  mode : Mode
  profile : Nat
  origin : Nat
  facing : Nat
  kind : DirectoryKind
  ref : Nat
  category : Nat
  ownGate : Option Nat
  epoch : Word16
  generation : Word16
  clockSet : Bool
  deriving DecidableEq, Repr

/-- R44: an entry of the label table, the predecessor edge absent for the origin. -/
inductive LabelEntry where
  | unseen
  | frontier (label : Nat) (pred : Option Nat)
  | settled (label : Nat) (pred : Option Nat)
  deriving DecidableEq, Repr

/-- R75: the status of a record. -/
inductive RouteStatus where
  | found | arrived | unreachable | noOpenEntrance
  deriving DecidableEq, Repr

/-- R74: the kinds of leg. -/
inductive LegKind where
  | walk | door | stairsUp | stairsDown | escalatorUp | escalatorDown | elevatorUp | elevatorDown | travelator | onward
  deriving DecidableEq, Repr

/-- R74: a leg record. `turn` none is NONE, `heading` none is V. -/
structure Leg where
  kind : LegKind
  stopped : Bool
  turn : Option Nat
  heading : Option Nat
  distance : Nat
  time : Nat
  endNode : Nat
  endFloor : Nat
  landmark : Option Nat
  deriving DecidableEq, Repr

/-- R75: a route record; the leg count is the length of `legs`, `target` is the target node and floor. -/
structure RouteRecord where
  tag : Nat
  screen : Nat
  destination : Nat
  category : Nat
  status : RouteStatus
  trimmed : Bool
  summarised : Bool
  egress : Bool
  destClosed : Bool
  clockUnset : Bool
  reached : Option Nat
  target : Option (Nat × Nat)
  totalTime : Nat
  seconds : Nat
  minutes : Nat
  distance : Nat
  epoch : Word16
  generation : Word16
  legs : List Leg
  deriving DecidableEq, Repr

/-- R41: a search lane. A target is a node with its member index where the destination is a group. The heap lists
(label, node) pairs, least first (R45). -/
structure Lane where
  state : LaneState
  request : Option Request
  context : Option SearchContext
  targets : List (Nat × Option Nat)
  labels : Table LabelEntry
  heap : List (Nat × Nat)
  trimmed : Bool
  egress : Bool
  destClosed : Bool
  clockUnset : Bool
  record : Option RouteRecord
  deriving DecidableEq, Repr

/-- R65: a lane after power-on reset. -/
def Lane.cleared : Lane :=
  { state := .free, request := none, context := none, targets := [], labels := [], heap := [], trimmed := false,
    egress := false, destClosed := false, clockUnset := false, record := none }

/-! ### Result Store (R76 to R84) -/

/-- R76: what an OCCUPIED slot holds; `hold` is the number of seconds its running hold timer was started with (R80). -/
structure Slot where
  record : RouteRecord
  screen : Nat
  hold : Nat
  deriving DecidableEq, Repr

/-- The Result Store: the occupied slots and the holders list, lane numbers from the earliest. -/
structure ResultStore where
  slots : Table (Option Slot)
  holders : List Nat
  deriving DecidableEq, Repr

/-! ### Egress Control (R149 to R157) -/

/-- R150: the cause of entry into EGRESS. -/
inductive EntryCause where
  | alarm | drill
  deriving DecidableEq, Repr

/-- Egress Control: the filtered level (true is ASSERTED), whether the measure of the other pin level runs, the mode and
the cause of entry. -/
structure EgressControl where
  asserted : Bool
  measuring : Bool
  mode : Mode
  cause : Option EntryCause
  deriving DecidableEq, Repr

/-! ### Host Link (R168 to R179) -/

/-- R168: the reception states. -/
inductive Reception where
  | hunt | length | kind | payload | check
  deriving DecidableEq, Repr

/-- R179: the reply codes 0 to 26, in order. -/
inductive ReplyCode where
  | ok | nothing | nothingPending | already | noResult | badCheck | badLength | frameTimeout | unknownKind | notStarted
  | siteUnavailable | wrongState | badScreen | badDestination | badProfile | screenBusy | resultPending | queueFull
  | listFull | badTarget | badIndex | badValue | tooLarge | transferBusy | egressActive | alarmActive | linkBusy
  deriving DecidableEq, Repr

/-- R179: the request kinds 01h to 16h, in order. -/
inductive RequestKind where
  | ackStart | status | softReset | setParam | getParam | siteOpen | siteClose | tableWrite | tableRead | siteLoad
  | siteDump | condition | conditionRead | turnNow | setClock | route | cancel | collect | screenState | flowRead
  | egressEnter | egressResume
  deriving DecidableEq, Repr

/-- A frame of the part: its kind byte and its payload (R179). -/
structure Frame where
  kind : Byte
  payload : List Byte
  deriving DecidableEq, Repr

/-- R169: an entry of the reply queue. -/
inductive ReplyEntry where
  | reply (frame : Frame)
  | busyRun (count : Nat)
  deriving DecidableEq, Repr

/-- R171: the kind of the last reset. -/
inductive ResetKind where
  | powerOn | soft
  deriving DecidableEq, Repr

/-- R98: the reason of a REQUEST DROPPED notice. -/
inductive DropReason where
  | site | mode
  deriving DecidableEq, Repr

/-- R13: the cause of a SITE STATE notice. -/
inductive SiteCause where
  | openSession | close | load | drain | egress
  deriving DecidableEq, Repr

/-- R156: the event of an EGRESS notice. -/
inductive EgressEvent where
  | entered | alarmAsserted | alarmClear | resumed
  deriving DecidableEq, Repr

/-- R175, R179: the notices, in the order of their kinds C0h to CCh. -/
inductive Notice where
  | start (kind : ResetKind)
  | resultReady (screen slot tag : Nat) (status : RouteStatus)
  | resultExpired (screen tag : Nat)
  | requestDropped (screen tag : Nat) (reason : DropReason)
  | turnDone (epoch : Word16) (edits changes : Nat) (cause : TurnCause)
  | flowLevel (channel : Nat) (old new : Level)
  | flowStale (channel : Nat) (before : Level) (missed : Nat)
  | flowReseed (channel : Nat) (average : Int) (level : Level)
  | scheduleLate (entry : Nat) (target : Target) (minute lateCount : Nat)
  | siteState (state : SiteState) (generation : Word16) (cause : SiteCause)
  | transferDone (operation : Operation) (outcome : TransferOutcome) (address : Nat) (imageLength : Option Nat)
      (generation : Option Word16)
  | egress (event : EgressEvent) (mode : Mode) (cause : Option EntryCause) (asserted : Bool)
  | overrun (count : Nat)
  deriving DecidableEq, Repr

/-- R174: the ALERT sources. -/
inductive AlertSource where
  | egress | anyCrowded | siteNotValid | startPending | noticeBacklog | fixedLow | fixedHigh
  deriving DecidableEq, Repr

/-- R174: the ALERT polarities. -/
inductive AlertPolarity where
  | activeHigh | activeLow
  deriving DecidableEq, Repr

/-- R174: the six parameters. Bit n of `enables` belongs to notice kind C0h + n (R179). -/
structure Parameters where
  turnPeriod : Nat           -- 1-60 s
  resultHold : Nat           -- 5-300 s
  sampleInterval : Nat       -- 5-60 s
  enables : BitVec 13
  alertSource : AlertSource
  alertPolarity : AlertPolarity
  deriving DecidableEq, Repr

/-- R174: the defaults. -/
def Parameters.defaults : Parameters :=
  { turnPeriod := 2, resultHold := 30, sampleInterval := 10, enables := BitVec.allOnes 13, alertSource := .egress,
    alertPolarity := .activeHigh }

/-- The Host Link. `sending` is the frame TXD carries; `softReset` says that a SOFT RESET has been taken and has not yet
taken effect (R172). -/
structure HostLink where
  reception : Reception
  assembled : List Byte
  gapTimer : Bool
  replies : List ReplyEntry
  sending : Option Frame
  notices : List Notice
  overrunMark : Bool
  dropped : Nat
  startPending : Bool
  resetKind : ResetKind
  repeatTimer : Bool
  softReset : Bool
  parameters : Parameters
  deriving DecidableEq, Repr

/-- R178: the host link after a reset of this kind. -/
def HostLink.afterReset (kind : ResetKind) : HostLink :=
  { reception := .hunt, assembled := [], gapTimer := false, replies := [], sending := none, notices := [.start kind],
    overrunMark := false, dropped := 0, startPending := true, resetKind := kind, repeatTimer := false, softReset := false,
    parameters := .defaults }

/-- The RESET pin and the straps sampled while it is asserted (00_scope, Signal Summary; R177, R178). -/
structure Pins where
  resetAsserted : Bool
  rate : BitVec 2
  bootld : Bool
  deriving DecidableEq, Repr

/-! ### The whole part -/

/-- The state of the part, and the queue of commands that wait, first in, first out. -/
structure State where
  pending : List Instr
  pins : Pins
  site : SiteStore
  transfer : TransferUnit
  conditions : ConditionUnit
  schedule : ScheduleUnit
  flow : FlowMonitor
  dispatcher : RequestDispatcher
  lanes : Table Lane
  store : ResultStore
  egress : EgressControl
  link : HostLink
  deriving DecidableEq, Repr

/-- The part stops with a fault: no rule of the spec names a condition in which the part stops, so this type has no
constructor and no command faults (safe: there is nothing to raise). -/
inductive Fault where
  deriving DecidableEq, Repr

/-- A command without a meaning. -/
inductive Refusal where
  /-- Raised by `exec` alone, for a row that has no meaning yet. Safe. No arm raises it in this model. -/
  | notModelled (mnemonic : String)
  deriving DecidableEq, Repr

/-- R23: the cleared site header. -/
def Header.cleared : Header :=
  { nodeCount := 0, edgeCount := 0, adjacencyCount := 0, groupCount := 0, memberCount := 0, directoryCount := 0,
    scheduleCount := 0, exitGroup := 0, fBusy := 24, fCrowded := 40, fUnknown := 20 }

/-- R23: the Site Store after power-on reset, every table cleared. -/
def SiteStore.cleared : SiteStore :=
  { header := .cleared, nodes := [], edges := [], adjacency := [], groups := [], members := [], directory := [],
    gates := [], profiles := [], screens := [], channels := [], schedule := [], state := .empty, generation := 0,
    drain := none }

/-- R167: the unit after power-on reset. -/
def TransferUnit.cleared : TransferUnit :=
  { state := .idle, operation := none, address := none, imageLength := none, check := 0, expected := 0, offset := 0,
    position := none, sent := [], last := none }

/-- The part right after power-on reset (R23, R65, R84, R99, R116, R137, R148, R157, R167, R178) with the straps RATE and
BOOTLD low and the ALARM pin low: DESIGN CHOICE (notes/assumptions/1.md); POWER_ON_RESET takes any levels. -/
def State.reset : State :=
  { pending := []
    pins := { resetAsserted := false, rate := 0, bootld := false }
    site := .cleared
    transfer := .cleared
    conditions := { closures := [], motions := [], gates := [], levels := [], edits := [], epoch := 0, turn := .idle,
                    timer := none }
    schedule := { clockSet := false, second := 0, day := 0, late := [], boundaryDue := false }
    flow := { channels := [], timer := none, cycle := none }
    dispatcher := { screens := [], queue := [] }
    lanes := []
    store := { slots := [], holders := [] }
    egress := { asserted := false, measuring := false, mode := .normal, cause := none }
    link := .afterReset .powerOn }

end Sys2Proof.Machine
end

