-- ==== Sys2Proof/Machine/Encodings.lean ====
section
/-! DEFINITION. The codes of enumerated items (R179): the codes of the table of encodings, and elsewhere numbers from 0 in
the order in which the manual's table or list gives the values. -/

namespace Sys2Proof.Machine

/-- yes and set are 1, no and clear are 0 (R179; DEDUCED, notes/assumptions/2.md). -/
def flagCode (b : Bool) : Nat := if b then 1 else 0

/-- The yes/no value of a code, none where it encodes no value (R179; notes/assumptions/2.md). -/
def flagOfCode : Nat → Option Bool
  | 0 => some false
  | 1 => some true
  | _ => none

/-- R3's order. -/
def EdgeClass.code : EdgeClass → Nat
  | .walk => 0 | .door => 1 | .stairs => 2 | .escalator => 3 | .travelator => 4 | .elevator => 5

def EdgeClass.ofCode : Nat → Option EdgeClass
  | 0 => some .walk | 1 => some .door | 2 => some .stairs | 3 => some .escalator | 4 => some .travelator
  | 5 => some .elevator | _ => none

/-- R3's order. -/
def DirectionMode.code : DirectionMode → Nat
  | .runAB => 0 | .runBA => 1 | .stopped => 2 | .both => 3

def DirectionMode.ofCode : Nat → Option DirectionMode
  | 0 => some .runAB | 1 => some .runBA | 2 => some .stopped | 3 => some .both | _ => none

/-- R6's order. -/
def Selection.code : Selection → Nat
  | .nearest => 0 | .firstOpen => 1

def Selection.ofCode : Nat → Option Selection
  | 0 => some .nearest | 1 => some .firstOpen | _ => none

/-- R7's order. -/
def DirectoryKind.code : DirectoryKind → Nat
  | .unused => 0 | .direct => 1 | .group => 2

def DirectoryKind.ofCode : Nat → Option DirectoryKind
  | 0 => some .unused | 1 => some .direct | 2 => some .group | _ => none

/-- OPEN 0, CLOSED 1 (R179). -/
def Closure.code : Closure → Nat
  | .opened => 0 | .closed => 1

def Closure.ofCode : Nat → Option Closure
  | 0 => some .opened | 1 => some .closed | _ => none

/-- R10's order. -/
def Role.code : Role → Nat
  | .independent => 0 | .reference => 1 | .follower => 2

def Role.ofCode : Nat → Option Role
  | 0 => some .independent | 1 => some .reference | 2 => some .follower | _ => none

/-- R11's order. -/
def Motion.code : Motion → Nat
  | .runAB => 0 | .runBA => 1 | .stopped => 2

def Motion.ofCode : Nat → Option Motion
  | 0 => some .runAB | 1 => some .runBA | 2 => some .stopped | _ => none

/-- R11's order. -/
def TargetKind.code : TargetKind → Nat
  | .edge => 0 | .motion => 1 | .gate => 2

def TargetKind.ofCode : Nat → Option TargetKind
  | 0 => some .edge | 1 => some .motion | 2 => some .gate | _ => none

def Setting.code : Setting → Nat
  | .closure c => c.code
  | .motion m => m.code

/-- The value a code stands for on a target of this kind (R11, R103). -/
def Setting.ofCode (kind : TargetKind) (n : Nat) : Option Setting :=
  match kind with
  | .motion => (Motion.ofCode n).map .motion
  | .edge | .gate => (Closure.ofCode n).map .closure

/-- Heading 0-7, V is 8; turn 0-7, NONE is 8 (R179). -/
def headingCode (h : Option Nat) : Nat := h.getD 8

/-- The heading of a code, none where it encodes no heading (R3, R179). -/
def headingOfCode (n : Nat) : Option (Option Nat) :=
  if n < 8 then some (some n) else if n = 8 then some none else none

/-- The table numbers (R179). -/
def TableId.code : TableId → Nat
  | .header => 0 | .nodes => 1 | .edges => 2 | .adjacency => 3 | .groups => 4 | .members => 5 | .directory => 6
  | .gates => 7 | .profiles => 8 | .screens => 9 | .channels => 10 | .schedule => 11

def TableId.ofCode : Nat → Option TableId
  | 0 => some .header | 1 => some .nodes | 2 => some .edges | 3 => some .adjacency | 4 => some .groups
  | 5 => some .members | 6 => some .directory | 7 => some .gates | 8 => some .profiles | 9 => some .screens
  | 10 => some .channels | 11 => some .schedule | _ => none

/-- R13's order. -/
def SiteState.code : SiteState → Nat
  | .empty => 0 | .loading => 1 | .valid => 2 | .draining => 3 | .editing => 4 | .invalid => 5

/-- R13's order. -/
def SiteCause.code : SiteCause → Nat
  | .openSession => 0 | .close => 1 | .load => 2 | .drain => 3 | .egress => 4

/-- R158's order. -/
def TransferState.code : TransferState → Nat
  | .idle => 0 | .readyWait => 1 | .readHeader => 2 | .readTables => 3 | .validate => 4 | .erase => 5 | .program => 6

/-- R158's order. -/
def Operation.code : Operation → Nat
  | .load => 0 | .dump => 1

/-- An outcome is numbered in the list of its own operation (R166). -/
def TransferOutcome.code (operation : Operation) (outcome : TransferOutcome) : Nat :=
  match outcome with
  | .valid => 0
  | .badHeader _ => 1
  | .badRecord _ _ => 2
  | .checkMismatch _ _ => 3
  | .invalid _ => 4
  | .written => 0
  | .flashTimeout _ _ => match operation with
    | .load => 5
    | .dump => 1

/-- The letter and the digit of a check code (R20, R160). -/
def CheckCode.characters : CheckCode → Nat × Nat
  | .N1 => (0x4E, 1)
  | .E1 => (0x45, 1) | .E2 => (0x45, 2) | .E3 => (0x45, 3) | .E4 => (0x45, 4) | .E5 => (0x45, 5)
  | .A1 => (0x41, 1) | .A2 => (0x41, 2)
  | .G1 => (0x47, 1) | .G2 => (0x47, 2) | .G3 => (0x47, 3)
  | .M1 => (0x4D, 1) | .D1 => (0x44, 1) | .P1 => (0x50, 1) | .S1 => (0x53, 1)
  | .F1 => (0x46, 1) | .F2 => (0x46, 2) | .F3 => (0x46, 3) | .F4 => (0x46, 4)
  | .C1 => (0x43, 1) | .C2 => (0x43, 2)
  | .H1 => (0x48, 1) | .H2 => (0x48, 2) | .H3 => (0x48, 3) | .H4 => (0x48, 4) | .H5 => (0x48, 5)

/-- Two characters, letter then digit (R179). -/
def CheckCode.bytes (code : CheckCode) : List Byte :=
  le8 code.characters.1 ++ le8 (0x30 + code.characters.2)

/-- R117's order. -/
def Level.code : Level → Nat
  | .clear => 0 | .busy => 1 | .crowded => 2 | .unknown => 3 | .off => 4

/-- R117's order. -/
def ChannelState.code : ChannelState → Nat
  | .off => 0 | .seeding => 1 | .tracking => 2 | .stale => 3

/-- R112's order. -/
def TurnCause.code : TurnCause → Nat
  | .timer => 0 | .request => 1 | .schedule => 2 | .site => 3

/-- R107: IDLE, WAITING. -/
def TurnState.code : TurnState → Nat
  | .idle => 0 | .waiting _ => 1

/-- R104: HOST, SCHEDULE. -/
def Source.code : Source → Nat
  | .host => 0 | .schedule _ => 1

/-- R138: SET, UNSET. -/
def clockCode (set : Bool) : Nat := if set then 0 else 1

/-- R41's order. -/
def LaneState.code : LaneState → Nat
  | .free => 0 | .searching => 1 | .holding => 2

/-- R85's order. -/
def ScreenStatus.code : ScreenStatus → Nat
  | .idle => 0 | .queued => 1 | .active _ => 2 | .ready _ => 3

/-- R75's order. -/
def RouteStatus.code : RouteStatus → Nat
  | .found => 0 | .arrived => 1 | .unreachable => 2 | .noOpenEntrance => 3

/-- R74's order. -/
def LegKind.code : LegKind → Nat
  | .walk => 0 | .door => 1 | .stairsUp => 2 | .stairsDown => 3 | .escalatorUp => 4 | .escalatorDown => 5
  | .elevatorUp => 6 | .elevatorDown => 7 | .travelator => 8 | .onward => 9

/-- R98's order. -/
def DropReason.code : DropReason → Nat
  | .site => 0 | .mode => 1

/-- R150's order. -/
def Mode.code : Mode → Nat
  | .normal => 0 | .egress => 1

/-- R150, R156: ALARM, DRILL. -/
def EntryCause.code : EntryCause → Nat
  | .alarm => 0 | .drill => 1

/-- R149, R156: ASSERTED, CLEAR. -/
def alarmCode (asserted : Bool) : Nat := if asserted then 0 else 1

/-- R156's order. -/
def EgressEvent.code : EgressEvent → Nat
  | .entered => 0 | .alarmAsserted => 1 | .alarmClear => 2 | .resumed => 3

/-- R171: POWER_ON, SOFT. -/
def ResetKind.code : ResetKind → Nat
  | .powerOn => 0 | .soft => 1

/-- R179: 0 to 26. -/
def ReplyCode.code : ReplyCode → Nat
  | .ok => 0 | .nothing => 1 | .nothingPending => 2 | .already => 3 | .noResult => 4 | .badCheck => 5 | .badLength => 6
  | .frameTimeout => 7 | .unknownKind => 8 | .notStarted => 9 | .siteUnavailable => 10 | .wrongState => 11
  | .badScreen => 12 | .badDestination => 13 | .badProfile => 14 | .screenBusy => 15 | .resultPending => 16
  | .queueFull => 17 | .listFull => 18 | .badTarget => 19 | .badIndex => 20 | .badValue => 21 | .tooLarge => 22
  | .transferBusy => 23 | .egressActive => 24 | .alarmActive => 25 | .linkBusy => 26

/-- R179: 01h to 16h. -/
def RequestKind.code : RequestKind → Nat
  | .ackStart => 1 | .status => 2 | .softReset => 3 | .setParam => 4 | .getParam => 5 | .siteOpen => 6 | .siteClose => 7
  | .tableWrite => 8 | .tableRead => 9 | .siteLoad => 10 | .siteDump => 11 | .condition => 12 | .conditionRead => 13
  | .turnNow => 14 | .setClock => 15 | .route => 16 | .cancel => 17 | .collect => 18 | .screenState => 19
  | .flowRead => 20 | .egressEnter => 21 | .egressResume => 22

/-- R174's order. -/
def AlertSource.code : AlertSource → Nat
  | .egress => 0 | .anyCrowded => 1 | .siteNotValid => 2 | .startPending => 3 | .noticeBacklog => 4 | .fixedLow => 5
  | .fixedHigh => 6

def AlertSource.ofCode : Nat → Option AlertSource
  | 0 => some .egress | 1 => some .anyCrowded | 2 => some .siteNotValid | 3 => some .startPending
  | 4 => some .noticeBacklog | 5 => some .fixedLow | 6 => some .fixedHigh | _ => none

/-- R174's order. -/
def AlertPolarity.code : AlertPolarity → Nat
  | .activeHigh => 0 | .activeLow => 1

def AlertPolarity.ofCode : Nat → Option AlertPolarity
  | 0 => some .activeHigh | 1 => some .activeLow | _ => none

/-- The number n of a notice's kind C0h + n, which is also its enable bit (R179). -/
def Notice.number : Notice → Nat
  | .start _ => 0
  | .resultReady _ _ _ _ => 1
  | .resultExpired _ _ => 2
  | .requestDropped _ _ _ => 3
  | .turnDone _ _ _ _ => 4
  | .flowLevel _ _ _ => 5
  | .flowStale _ _ _ => 6
  | .flowReseed _ _ _ => 7
  | .scheduleLate _ _ _ _ => 8
  | .siteState _ _ _ => 9
  | .transferDone _ _ _ _ _ => 10
  | .egress _ _ _ _ => 11
  | .overrun _ => 12

/-- The subject of a notice: a screen, a channel, a schedule entry, or none (R175). -/
def Notice.subject : Notice → Option Nat
  | .resultReady screen _ _ _ => some screen
  | .resultExpired screen _ => some screen
  | .requestDropped screen _ _ => some screen
  | .flowLevel channel _ _ => some channel
  | .flowStale channel _ _ => some channel
  | .flowReseed channel _ _ => some channel
  | .scheduleLate entry _ _ _ => some entry
  | .start _ => none
  | .turnDone _ _ _ _ => none
  | .siteState _ _ _ => none
  | .transferDone _ _ _ _ _ => none
  | .egress _ _ _ _ => none
  | .overrun _ => none

/-- The six detail bytes of TRANSFER DONE, zero filled after the bytes the outcome uses (R179). -/
def TransferOutcome.detail (outcome : TransferOutcome) : List Byte :=
  let used := match outcome with
    | .badHeader code => code.bytes
    | .badRecord table index => le8 table.code ++ le16 index
    | .checkMismatch computed expected => le16 computed.toNat ++ le16 expected.toNat
    | .invalid failure => le8 failure.table.code ++ le16 failure.index ++ failure.code.bytes
    | .flashTimeout reached address => le8 reached.code ++ le32 address
    | .valid => []
    | .written => []
  used ++ List.replicate (6 - used.length) 0

/-- The payload of a notice (R179). -/
def Notice.payload : Notice → List Byte
  | .start kind => le8 kind.code
  | .resultReady screen slot tag status => le8 screen ++ le8 slot ++ le16 tag ++ le8 status.code
  | .resultExpired screen tag => le8 screen ++ le16 tag
  | .requestDropped screen tag reason => le8 screen ++ le16 tag ++ le8 reason.code
  | .turnDone epoch edits changes cause => le16 epoch.toNat ++ le8 edits ++ le8 changes ++ le8 cause.code
  | .flowLevel channel old new => le8 channel ++ le8 old.code ++ le8 new.code
  | .flowStale channel before missed => le8 channel ++ le8 before.code ++ le8 missed
  | .flowReseed channel average level => le8 channel ++ leInt16 average ++ le8 level.code
  | .scheduleLate entry target minute lateCount =>
      le8 entry ++ le8 target.kind.code ++ le16 target.index ++ le16 minute ++ le8 lateCount
  | .siteState state generation cause => le8 state.code ++ le16 generation.toNat ++ le8 cause.code
  | .transferDone operation outcome address imageLength generation =>
      le8 operation.code ++ le8 (outcome.code operation) ++ le32 address ++ opt32 imageLength
        ++ opt16 (generation.map BitVec.toNat) ++ outcome.detail
  | .egress event mode cause asserted =>
      le8 event.code ++ le8 mode.code ++ opt8 (cause.map EntryCause.code) ++ le8 (alarmCode asserted)
  | .overrun count => le8 count

/-- A notice's frame has kind C0h + n (R179). -/
def Notice.frame (n : Notice) : Frame := { kind := BitVec.ofNat 8 (0xC0 + n.number), payload := n.payload }

/-- The bytes of a frame on the link: SYNC, the length, the kind, the payload and the check (R179). -/
def Frame.bytes (f : Frame) : List Byte :=
  let body := le16 f.payload.length ++ [f.kind] ++ f.payload
  0xA5 :: (body ++ [checkByte body])

/-- The codes of the flash commands (R158). -/
def FlashCommand.code : FlashCommand → Nat
  | .read _ => 0x03 | .writeEnable => 0x06 | .sectorErase _ => 0x20 | .pageProgram _ _ => 0x02 | .readStatus => 0x05

/-- The bytes of a leg (R179). -/
def Leg.bytes (leg : Leg) : List Byte :=
  le8 leg.kind.code ++ le8 (flagCode leg.stopped) ++ le8 (headingCode leg.turn) ++ le8 (headingCode leg.heading)
    ++ le32 leg.distance ++ le32 leg.time ++ le16 leg.endNode ++ opt16 leg.landmark ++ le8 leg.endFloor ++ le8 0

/-- The flags of a record as one number (R179). -/
def RouteRecord.flags (r : RouteRecord) : Nat :=
  flagCode r.trimmed + 2 * flagCode r.summarised + 4 * flagCode r.egress + 8 * flagCode r.destClosed
    + 16 * flagCode r.clockUnset

/-- The bytes of a route record (R179). -/
def RouteRecord.bytes (r : RouteRecord) : List Byte :=
  le16 r.tag ++ le8 r.screen ++ le8 r.status.code ++ le16 r.destination ++ le8 r.category ++ le8 r.flags
    ++ opt8 r.reached ++ opt8 (r.target.map Prod.snd) ++ opt16 (r.target.map Prod.fst)
    ++ le32 r.totalTime ++ le32 r.seconds ++ le16 r.minutes ++ le32 r.distance ++ le16 r.epoch.toNat
    ++ le16 r.generation.toNat ++ le8 r.legs.length ++ le8 0 ++ r.legs.flatMap Leg.bytes

end Sys2Proof.Machine
end

