-- ==== Sys2Proof/Machine/Ops.lean ====
section
/-! DEFINITION. The named operations over the state that the commands share: sparse tables, the notice queue, the reply
queue, the lanes, the screens and the site state. -/

namespace Sys2Proof.Machine

/-! ### Sparse tables -/

/-- The entry of a table at an index; `cleared` where none is listed (R23). -/
def Table.get {α : Type} (cleared : α) : Table α → Nat → α
  | [], _ => cleared
  | (k, v) :: t, i => if k = i then v else Table.get cleared t i

/-- A table with the entry at an index replaced, kept canonical. -/
def Table.set {α : Type} [DecidableEq α] (cleared : α) : Table α → Nat → α → Table α
  | [], i, v => if v = cleared then [] else [(i, v)]
  | (k, w) :: t, i, v =>
    if i < k then (if v = cleared then (k, w) :: t else (i, v) :: (k, w) :: t)
    else if i = k then (if v = cleared then t else (i, v) :: t)
    else (k, w) :: Table.set cleared t i v

/-- The canonical form from a least index on: indices rise strictly, and no listed entry equals the cleared one. -/
def Table.wfFrom {α : Type} [DecidableEq α] (cleared : α) : Nat → Table α → Bool
  | _, [] => true
  | least, (k, v) :: t => least ≤ k && v ≠ cleared && Table.wfFrom cleared (k + 1) t

/-- The canonical form of a table. -/
def Table.wf {α : Type} [DecidableEq α] (cleared : α) (t : Table α) : Bool := Table.wfFrom cleared 0 t

/-- The table whose entry at each index below `count` is `f` of it, cleared from there on. -/
def Table.tabulate {α : Type} [DecidableEq α] (cleared : α) (count : Nat) (f : Nat → α) : Table α :=
  (List.range count).foldl (fun t i => Table.set cleared t i (f i)) []

/-! ### Cleared records (R23, R137) -/

/-- R23: a cleared node. -/
def Node.cleared : Node := { floor := 0, landmark := none, adjacencyStart := 0, adjacencyCount := 0 }

/-- R23: a cleared edge. -/
def Edge.cleared : Edge :=
  { a := 0, b := 0, cls := .walk, length := 0, heading := some 0, direction := .both, rideCode := 0, gate := none,
    channel := none, closedByDefault := false }

/-- R23: a cleared group. -/
def Group.cleared : Group := { selection := .nearest, memberStart := 0, memberCount := 1 }

/-- R23: a cleared member. -/
def Member.cleared : Member := { node := 0, gate := none }

/-- R23: a cleared directory entry. -/
def DirectoryEntry.cleared : DirectoryEntry := { kind := .unused, ref := 0, category := 0, ownGate := none }

/-- R23: a cleared profile. -/
def Profile.cleared : Profile :=
  { pace := 40, stairs := false, escalator := false, travelator := false, elevator := false, stairFactor := 16,
    liftWait := 0, aversion := 0 }

/-- R23: a cleared screen. -/
def Screen.cleared : Screen := { enabled := false, node := 0, facing := 0, profile := 0, priority := 0 }

/-- R23: a cleared flow channel record, every field the least of its range (R10). -/
def ChannelConfig.cleared : ChannelConfig :=
  { enabled := false, role := .independent, reference := 0, weight := 0, busy := 1, crowded := 1, hysteresis := 0,
    ceiling := 1, debounce := 1, filterShift := 0, averageShift := 2, activationShift := 0, settleBand := 0,
    plateauSamples := 0, staleLimit := 1 }

/-- R23: a cleared schedule entry. -/
def ScheduleEntry.cleared : ScheduleEntry :=
  { enabled := false, minute := 0, days := BitVec.allOnes 7, target := { kind := .edge, index := 0 },
    value := .closure .opened }

/-- R137: a channel of the Flow Monitor after power-on reset. -/
def Channel.cleared : Channel :=
  { state := .off, level := .off, filter := 0, average := 0, activation := 0, debounce := 0, plateau := 0, missed := 0,
    change := 0, lastCount := none }

/-! ### Reading the state -/

def State.node (s : State) (i : Nat) : Node := Table.get .cleared s.site.nodes i
def State.edge (s : State) (i : Nat) : Edge := Table.get .cleared s.site.edges i
def State.adjacent (s : State) (i : Nat) : Nat := Table.get 0 s.site.adjacency i
def State.group (s : State) (i : Nat) : Group := Table.get .cleared s.site.groups i
def State.member (s : State) (i : Nat) : Member := Table.get .cleared s.site.members i
def State.directoryEntry (s : State) (i : Nat) : DirectoryEntry := Table.get .cleared s.site.directory i
def State.gateDefault (s : State) (i : Nat) : Closure := Table.get .opened s.site.gates i
def State.profile (s : State) (i : Nat) : Profile := Table.get .cleared s.site.profiles i
def State.screenRecord (s : State) (i : Nat) : Screen := Table.get .cleared s.site.screens i
def State.channelConfig (s : State) (i : Nat) : ChannelConfig := Table.get .cleared s.site.channels i
def State.scheduleEntry (s : State) (i : Nat) : ScheduleEntry := Table.get .cleared s.site.schedule i

/-- The live closure of an edge (R101). -/
def State.closure (s : State) (e : Nat) : Closure := Table.get .opened s.conditions.closures e
/-- The live motion mode of an edge, none where it holds none (R101). -/
def State.motion (s : State) (e : Nat) : Option Motion := Table.get none s.conditions.motions e
/-- The live state of a gate (R101). -/
def State.gate (s : State) (g : Nat) : Closure := Table.get .opened s.conditions.gates g
/-- The published flow level of a channel (R101). -/
def State.published (s : State) (c : Nat) : Level := Table.get .off s.conditions.levels c
/-- What the Flow Monitor holds for a channel (R117). -/
def State.channel (s : State) (c : Nat) : Channel := Table.get .cleared s.flow.channels c
/-- The state of a screen (R85). -/
def State.screen (s : State) (i : Nat) : ScreenStatus := Table.get .idle s.dispatcher.screens i
/-- A search lane (R41). -/
def State.lane (s : State) (l : Nat) : Lane := Table.get .cleared s.lanes l
/-- What a result slot holds, none when FREE (R76). -/
def State.slot (s : State) (n : Nat) : Option Slot := Table.get none s.store.slots n

/-- Some lane is SEARCHING (R15, R107). -/
def State.anySearching (s : State) : Bool :=
  (List.range Config.lanes).any fun l => (s.lane l).state = .searching

/-- The lowest-numbered FREE lane (R92). -/
def State.lowestFreeLane (s : State) : Option Nat :=
  (List.range Config.lanes).find? fun l => (s.lane l).state = .free

/-- The FREE slot of lowest number (R77). -/
def State.lowestFreeSlot (s : State) : Option Nat :=
  (List.range Config.slots).find? fun n => s.slot n = none

/-- A transfer runs while the state is other than IDLE (R158). -/
def State.transferRuns (s : State) : Bool := s.transfer.state ≠ .idle

/-! ### Writing the state -/

def State.setScreen (s : State) (i : Nat) (v : ScreenStatus) : State :=
  { s with dispatcher := { s.dispatcher with screens := Table.set .idle s.dispatcher.screens i v } }

def State.setQueue (s : State) (queue : List QueueEntry) : State :=
  { s with dispatcher := { s.dispatcher with queue := queue } }

def State.setLane (s : State) (l : Nat) (v : Lane) : State :=
  { s with lanes := Table.set .cleared s.lanes l v }

def State.setSlot (s : State) (n : Nat) (v : Option Slot) : State :=
  { s with store := { s.store with slots := Table.set none s.store.slots n v } }

def State.setHolders (s : State) (holders : List Nat) : State :=
  { s with store := { s.store with holders := holders } }

def State.setChannel (s : State) (c : Nat) (v : Channel) : State :=
  { s with flow := { s.flow with channels := Table.set .cleared s.flow.channels c v } }

def State.setTransfer (s : State) (t : TransferUnit) : State := { s with transfer := t }

/-- The lane becomes FREE: no request, no context, no targets, no record, flags clear (R42, R62). Its label table and heap
are no longer needed and stand until its next search (R60). -/
def State.freeLane (s : State) (l : Nat) : State :=
  s.setLane l { Lane.cleared with labels := (s.lane l).labels, heap := (s.lane l).heap }

/-! ### The notice queue (R175, R176) -/

/-- The enable bit of a notice's kind is set (R174, R175). -/
def HostLink.enabled (k : HostLink) (n : Notice) : Bool := k.parameters.enables.getLsbD n.number

/-- Two notices share a key: the same kind and subject (R175). -/
def Notice.sameKey (m n : Notice) : Bool := m.number = n.number && m.subject = n.subject

/-- The content a queued entry takes from a later notice of its key: the later content, and for OVERRUN the sum of the
counts, stopping at 255 (R175, R176). -/
def Notice.replacedBy (queued later : Notice) : Notice :=
  match queued, later with
  | .overrun m, .overrun n => .overrun (min (m + n) 255)
  | _, n => n

/-- A block offers a notice (R175). -/
def HostLink.offer (n : Notice) (k : HostLink) : HostLink :=
  if !k.enabled n then k
  else if k.notices.any (·.sameKey n) then
    { k with notices := k.notices.map fun m => if m.sameKey n then m.replacedBy n else m }
  else if k.notices.length < Config.noticeEntries then { k with notices := k.notices ++ [n] }
  else { k with overrunMark := true, dropped := min (k.dropped + 1) 255 }

/-- The consequence of an entry's leaving the queue: with the mark set, OVERRUN is offered and the mark cleared (R176). -/
def HostLink.entryLeft (k : HostLink) : HostLink :=
  if k.overrunMark then
    HostLink.offer (.overrun k.dropped) { k with overrunMark := false, dropped := 0 }
  else k

def State.offer (s : State) (n : Notice) : State := { s with link := s.link.offer n }

/-! ### The reply queue (R169) -/

/-- The queue holds 7 entries or more, so that no frame is taken (R169). -/
def HostLink.full (k : HostLink) : Bool := Config.replyRoom ≤ k.replies.length

/-- A reply is appended at the end of the queue (R169). -/
def HostLink.append (f : Frame) (k : HostLink) : HostLink := { k with replies := k.replies ++ [.reply f] }

/-- A frame that is not taken: the busy run that is last grows, or a busy run of 1 is appended, or, with the last run at
65535, the frame is discarded unanswered (R169). -/
def growBusyRun : List ReplyEntry → List ReplyEntry
  | [] => [.busyRun 1]
  | [.busyRun n] => [.busyRun (if n < Config.busyRunMost then n + 1 else n)]
  | [.reply f] => [.reply f, .busyRun 1]
  | e :: rest => e :: growBusyRun rest

/-- The receiver returns to HUNT with no frame assembled and the gap timer stopped (R168). -/
def HostLink.toHunt (k : HostLink) : HostLink := { k with reception := .hunt, assembled := [], gapTimer := false }

/-- The frame of an ERROR reply: kind 80h, only its code (R168, R169). -/
def errorFrame (code : ReplyCode) : Frame := { kind := 0x80, payload := le8 code.code }

/-- The frame of a request's reply: the request's kind plus 80h, the code, and the data only when the code is OK (R179). -/
def replyFrame (kind : RequestKind) (code : ReplyCode) (data : List Byte) : Frame :=
  { kind := BitVec.ofNat 8 (0x80 + kind.code)
    payload := le8 code.code ++ (if code = .ok then data else []) }

/-- The part runs: RESET is not asserted (R177, 00_scope). -/
def State.running (s : State) : Bool := !s.pins.resetAsserted

/-- The receiver takes frames: RESET is not asserted and no SOFT RESET has been taken (R172, R177). -/
def State.listening (s : State) : Bool := s.running && !s.link.softReset

/-- A frame has been judged: the receiver returns to HUNT and, unless the reply queue takes none, the frame is dealt with
(R168, R169). -/
def State.judge (s : State) (dealt : State → State) : State :=
  if s.listening then
    let s := { s with link := s.link.toHunt }
    if s.link.full then { s with link := { s.link with replies := growBusyRun s.link.replies } } else dealt s
  else s

/-- A frame answered ERROR with this code (R168). -/
def State.answerError (s : State) (code : ReplyCode) : State :=
  s.judge fun s => { s with link := s.link.append (errorFrame code) }

/-- What a block answers a request: the code, the data of an OK reply, and the state it leaves. -/
structure Answer where
  code : ReplyCode
  data : List Byte
  state : State

/-- A refusal, or any answer that changes nothing and carries nothing. -/
def refuse (s : State) (code : ReplyCode) : Answer := { code := code, data := [], state := s }

/-- An OK answer without data. -/
def accept (s : State) : Answer := { code := .ok, data := [], state := s }

/-- An answer's reply is appended to the reply queue (R169). -/
def Answer.replied (a : Answer) (kind : RequestKind) : State :=
  { a.state with link := a.state.link.append (replyFrame kind a.code a.data) }

/-- The requests taken before ACK START (R171). -/
def RequestKind.beforeAck : RequestKind → Bool
  | .ackStart => true
  | .status => true
  | .getParam => true
  | .softReset => true
  | _ => false

/-- A whole request frame whose check is right: judged, its payload length checked, refused NOT_STARTED before ACK START,
and otherwise taken by its block, which answers it whole (R168, R169, R171). -/
def State.request (s : State) (kind : RequestKind) (lengthAllowed : Bool) (block : State → Answer) : State :=
  s.judge fun s =>
    if !lengthAllowed then (refuse s .badLength).replied kind
    else if s.link.startPending && !kind.beforeAck then (refuse s .notStarted).replied kind
    else (block s).replied kind

/-- An event of the part itself: nothing happens while RESET is asserted (R177). -/
def State.event (s : State) (effect : State → State) : State := if s.running then effect s else s

/-! ### The site state (R13) -/

/-- The turn timer runs in VALID and DRAINING (R108). -/
def SiteState.turnTimerRuns : SiteState → Bool
  | .valid => true
  | .draining => true
  | _ => false

/-- The site state changes, with what stops outside VALID: the sample timer and a poll cycle (R119, R136), and, outside
VALID and DRAINING, the turn timer (R108). -/
def State.moveSite (s : State) (next : SiteState) : State :=
  { s with
    site := { s.site with state := next }
    conditions := { s.conditions with timer := if next.turnTimerRuns then s.conditions.timer else none }
    flow := { s.flow with
      timer := if next = .valid then s.flow.timer else none
      cycle := if next = .valid then s.flow.cycle else none } }

/-- The SITE STATE notice of the present state and generation (R13). -/
def State.offerSiteState (s : State) (cause : SiteCause) : State :=
  s.offer (.siteState s.site.state s.site.generation cause)

/-- The site state changes with its SITE STATE notice (R13). -/
def State.moveSiteWithNotice (s : State) (next : SiteState) (cause : SiteCause) : State :=
  (s.moveSite next).offerSiteState cause

end Sys2Proof.Machine
end

