-- ==== Sys2Proof/Machine/Cost.lean ====
section
/-! DEFINITION. Travel cost arithmetic (R25 to R40): motion resolution, usability, base time, congestion, the clamp, and
the totals of a route. Every product and quotient is exact. -/

namespace Sys2Proof.Machine

/-- The least integer not below a quotient (00_scope, Rounding). -/
def ceilDiv (a b : Nat) : Nat := (a + b - 1) / b

/-- R26: the resolved class. A moving edge that holds no motion mode is not running. -/
def resolvedClass (mode : Mode) (cls : EdgeClass) (motion : Option Motion) : EdgeClass :=
  match cls with
  | .escalator => match mode, motion with
    | .normal, some .runAB => .escalator
    | .normal, some .runBA => .escalator
    | _, _ => .stairs
  | .travelator => match mode, motion with
    | .normal, some .runAB => .travelator
    | .normal, some .runBA => .travelator
    | _, _ => .walk
  | c => c

/-- R8, R28: the class is allowed to the profile. -/
def Profile.allows (p : Profile) : EdgeClass → Bool
  | .walk => true
  | .door => true
  | .stairs => p.stairs
  | .escalator => p.escalator
  | .travelator => p.travelator
  | .elevator => p.elevator

/-- R28: the traversal runs against a machine moving so. `ab` is the direction a to b. -/
def runningAgainst (ab : Bool) : Option Motion → Bool
  | some .runAB => !ab
  | some .runBA => ab
  | _ => false

/-- The live conditions of one edge that a pricing reads (R25). -/
structure EdgeConditions where
  closure : Closure
  motion : Option Motion
  gateClosed : Bool
  level : Option Level
  deriving DecidableEq, Repr

/-- R25: the live conditions of an edge: its closure, its motion mode, its gate if it has one, its channel's published
level if it has one. -/
def State.edgeConditions (s : State) (e : Nat) : EdgeConditions :=
  { closure := s.closure e
    motion := s.motion e
    gateClosed := match (s.edge e).gate with
      | some g => s.gate g = .closed
      | none => false
    level := (s.edge e).channel.map s.published }

/-- R27, R28: the traversal is usable. -/
def usable (mode : Mode) (p : Profile) (edge : Edge) (live : EdgeConditions) (ab : Bool) : Bool :=
  let cls := resolvedClass mode edge.cls live.motion
  live.closure = .opened
    && !(mode = .normal && live.gateClosed)
    && !(mode = .egress && edge.cls = .elevator)
    && p.allows cls
    && !((cls = .escalator || cls = .travelator) && runningAgainst ab live.motion)
    && !((cls = .escalator || cls = .elevator) && edge.rideCode = 0)

/-- R30's ride code table, part of the device: code n, 1 to 15, is n times 5 s, in deciseconds. -/
def rideTime (code : Nat) : Nat := 50 * code

/-- R29, R30: the base time in deciseconds, by the resolved class. -/
def baseTime (p : Profile) (edge : Edge) : EdgeClass → Nat
  | .walk => ceilDiv (100 * edge.length) p.pace
  | .door => ceilDiv (100 * edge.length) p.pace + 20
  | .stairs => ceilDiv (100 * edge.length * p.stairFactor) (16 * p.pace)
  | .travelator => ceilDiv (100 * edge.length) (p.pace + 50)
  | .escalator => rideTime edge.rideCode
  | .elevator => rideTime edge.rideCode + p.liftWait

/-- R31: the factor of an edge's published level, in sixteenths; none is an edge without a channel. -/
def levelFactor (h : Header) : Option Level → Nat
  | none => 16
  | some .clear => 16
  | some .off => 16
  | some .busy => h.fBusy
  | some .crowded => h.fCrowded
  | some .unknown => h.fUnknown

/-- R32: the effective factor, in sixteenths. -/
def effectiveFactor (f aversion : Nat) : Nat := 16 + (f - 16) * aversion / 2

/-- R33: the clamp into 1-16383 ds. -/
def clampCost (cost : Nat) : Nat := min (max cost 1) 16383

/-- R25 to R34: the cost of a traversal in deciseconds, none when it is UNUSABLE. -/
def price (mode : Mode) (p : Profile) (h : Header) (edge : Edge) (live : EdgeConditions) (ab : Bool) : Option Nat :=
  if usable mode p edge live ab then
    let base := baseTime p edge (resolvedClass mode edge.cls live.motion)
    some (clampCost (ceilDiv (base * effectiveFactor (levelFactor h live.level) p.aversion) 16))
  else none

/-- R25: the lane prices a traversal under its search context. -/
def State.priceUnder (s : State) (ctx : SearchContext) (e : Nat) (ab : Bool) : Option Nat :=
  price ctx.mode (s.profile ctx.profile) s.site.header (s.edge e) (s.edgeConditions e) ab

/-- R36: deciseconds to seconds, halves rounded up. -/
def secondsOf (ds : Nat) : Nat := (ds + 5) / 10

/-- R37: seconds to minutes, halves rounded up, and 1 for any time that is not none. -/
def minutesOf (seconds : Nat) : Nat :=
  let minutes := (seconds + 30) / 60
  if minutes = 0 && seconds > 0 then 1 else minutes

end Sys2Proof.Machine
end

