-- ==== Sys2Proof/Machine/Search.lean ====
section
/-! DEFINITION. The search of a lane: the target set (R46 to R51), the label table and the frontier heap (R44, R45), the
settling of nodes (R52 to R57), and the chain of traversals behind a settled target (R67). -/

namespace Sys2Proof.Machine

/-! ### The target set (R46 to R51) -/

/-- The members of a group with their member indices, in stored order (R6). -/
def State.groupMembers (s : State) (g : Nat) : List (Nat × Member) :=
  (List.range (s.group g).memberCount).map fun i => (i, s.member ((s.group g).memberStart + i))

/-- A member is open: its gate is absent, or its live state is OPEN (R48). -/
def State.memberOpen (s : State) (m : Member) : Bool :=
  match m.gate with
  | none => true
  | some g => s.gate g = .opened

/-- A member as a target: its node with its member index. -/
def memberTarget (m : Nat × Member) : Nat × Option Nat := (m.2.node, some m.1)

/-- R46: every member of the exit group, gates not consulted. -/
def State.exitTargets (s : State) : List (Nat × Option Nat) :=
  (s.groupMembers s.site.header.exitGroup).map memberTarget

/-- R48: the open members of a group, or the first of them, by the selection mode. -/
def State.groupTargets (s : State) (g : Nat) : List (Nat × Option Nat) :=
  let opened := ((s.groupMembers g).filter fun m => s.memberOpen m.2).map memberTarget
  match (s.group g).selection with
  | .nearest => opened
  | .firstOpen => opened.take 1

/-- R46 to R48: the target set of a search. An UNUSED entry is granted no search (R88) and names no target. -/
def State.targetSet (s : State) (ctx : SearchContext) : List (Nat × Option Nat) :=
  match ctx.mode with
  | .egress => s.exitTargets
  | .normal => match ctx.kind with
    | .direct => [(ctx.ref, none)]
    | .group => s.groupTargets ctx.ref
    | .unused => []

/-- R51: DEST_CLOSED is set in NORMAL mode when the entry's own gate is CLOSED. -/
def State.destClosed (s : State) (ctx : SearchContext) : Bool :=
  ctx.mode = .normal && match ctx.ownGate with
    | none => false
    | some g => s.gate g = .closed

/-- The node is in the target set. -/
def isTarget (targets : List (Nat × Option Nat)) (node : Nat) : Bool := targets.any fun t => t.1 = node

/-- The member index a node carries in the target set (R48, R50, R53). -/
def memberIndexOf (targets : List (Nat × Option Nat)) (node : Nat) : Option Nat :=
  (targets.find? fun t => t.1 = node).bind Prod.snd

/-! ### The frontier heap (R45) -/

/-- A heap entry, (label, node), is less than another: by label, and by node index where the labels are equal. -/
def heapLess (x y : Nat × Nat) : Bool := x.1 < y.1 || (x.1 = y.1 && x.2 < y.2)

/-- An entry joins the heap in its order. -/
def heapInsert (x : Nat × Nat) : List (Nat × Nat) → List (Nat × Nat)
  | [] => [x]
  | y :: rest => if heapLess x y then x :: y :: rest else y :: heapInsert x rest

/-- The working tables of a search: the label table, the heap and the TRIMMED flag. -/
structure Frontier where
  labels : Table LabelEntry
  heap : List (Nat × Nat)
  trimmed : Bool
  deriving DecidableEq, Repr

/-- The label entry of a node (R44). -/
def Frontier.label (f : Frontier) (node : Nat) : LabelEntry := Table.get .unseen f.labels node

/-- A node becomes FRONTIER with this label and predecessor edge (R44). -/
def Frontier.mark (f : Frontier) (node label : Nat) (pred : Option Nat) : Table LabelEntry :=
  Table.set .unseen f.labels node (.frontier label pred)

/-- R54 step 4 and R55: an UNSEEN node is inserted; a full heap gives up its greatest entry or the new one. -/
def Frontier.insert (f : Frontier) (node label : Nat) (pred : Option Nat) : Frontier :=
  if f.heap.length < Config.heapEntries then
    { f with labels := f.mark node label pred, heap := heapInsert (label, node) f.heap }
  else match f.heap.getLast? with
    | none => f
    | some greatest =>
      if heapLess (label, node) greatest then
        { labels := Table.set .unseen (f.mark node label pred) greatest.2 .unseen
          heap := heapInsert (label, node) f.heap.dropLast
          trimmed := true }
      else { f with trimmed := true }

/-- R54 step 5: a FRONTIER node's label is lowered in place. -/
def Frontier.lower (f : Frontier) (node label : Nat) (pred : Option Nat) : Frontier :=
  { f with
    labels := f.mark node label pred
    heap := heapInsert (label, node) (f.heap.filter fun x => x.2 ≠ node) }

/-- R54 steps 1 and 3 to 6: a label is offered to a node through an edge. -/
def Frontier.offer (f : Frontier) (node label edge : Nat) : Frontier :=
  match f.label node with
  | .settled _ _ => f
  | .unseen => f.insert node label (some edge)
  | .frontier held _ => if label < held then f.lower node label (some edge) else f

/-! ### The search (R52 to R57) -/

/-- The other endpoint of an edge, and whether the traversal from u is from a to b (R54). -/
def Edge.leave (e : Edge) (u : Nat) : Nat × Bool := if e.a = u then (e.b, true) else (e.a, false)

/-- The edges of a node's adjacency list, in stored order (R2, R5). -/
def State.edgesOf (s : State) (u : Nat) : List Nat :=
  (List.range (s.node u).adjacencyCount).map fun i => s.adjacent ((s.node u).adjacencyStart + i)

/-- R54: one adjacency entry of a settled node u of this label. -/
def State.examine (s : State) (ctx : SearchContext) (u label : Nat) (f : Frontier) (e : Nat) : Frontier :=
  let (m, ab) := (s.edge e).leave u
  match s.priceUnder ctx e ab with
  | none => f
  | some cost => f.offer m (label + cost) e

/-- The predecessor edge of a label entry (R44). -/
def LabelEntry.pred : LabelEntry → Option Nat
  | .unseen => none
  | .frontier _ p => p
  | .settled _ p => p

/-- R53, R57: nodes are settled one at a time until a target is settled (FOUND: its node and label) or the heap is empty.
A search settles each node at most once (R53), so `fuel` one above the number of nodes ends no search early. -/
def State.settle (s : State) (ctx : SearchContext) (targets : List (Nat × Option Nat)) :
    Nat → Frontier → Frontier × Option (Nat × Nat)
  | 0, f => (f, none)
  | fuel + 1, f =>
    match f.heap with
    | [] => (f, none)
    | (label, u) :: rest =>
      let f := { f with
        labels := Table.set .unseen f.labels u (.settled label (f.label u).pred)
        heap := rest }
      if isTarget targets u then (f, some (u, label))
      else s.settle ctx targets fuel ((s.edgesOf u).foldl (s.examine ctx u label) f)

/-- R52: every entry below the node count UNSEEN, the heap holding the origin with label 0. -/
def State.startFrontier (s : State) (lane : Lane) (origin : Nat) : Frontier :=
  let labels := lane.labels.filter fun x => s.site.header.nodeCount ≤ x.1
  { labels := Table.set .unseen labels origin (.frontier 0 none), heap := [(0, origin)], trimmed := false }

/-- R52 to R57: the search of a lane under its context and target set. -/
def State.search (s : State) (lane : Lane) (ctx : SearchContext) : Frontier × Option (Nat × Nat) :=
  s.settle ctx lane.targets (Config.nodes + 1) (s.startFrontier lane ctx.origin)

/-! ### Rebuilding (R67) -/

/-- R67: a traversal of a route. -/
structure Traversal where
  edge : Nat
  ab : Bool
  fromNode : Nat
  toNode : Nat
  resolved : EdgeClass
  cost : Nat
  length : Nat
  deriving DecidableEq, Repr

/-- R67, R40: the traversal that reached a node by its predecessor edge, priced again under the search context. -/
def State.traversalInto (s : State) (ctx : SearchContext) (node e : Nat) : Traversal :=
  let edge := s.edge e
  let ab := edge.b = node
  { edge := e
    ab := ab
    fromNode := if ab then edge.a else edge.b
    toNode := node
    resolved := resolvedClass ctx.mode edge.cls (s.motion e)
    cost := (s.priceUnder ctx e ab).getD 0
    length := edge.length }

/-- R67: the chain of predecessor edges from a node back to the origin, put before the traversals already found. The
chain passes through distinct nodes (R35), so `fuel` of the number of nodes reaches the origin. -/
def State.chain (s : State) (ctx : SearchContext) (labels : Table LabelEntry) :
    Nat → Nat → List Traversal → List Traversal
  | 0, _, found => found
  | fuel + 1, node, found =>
    match (Table.get .unseen labels node).pred with
    | none => found
    | some e =>
      let t := s.traversalInto ctx node e
      s.chain ctx labels fuel t.fromNode (t :: found)

/-- R67: the route from the origin to the target, in the order walked. -/
def State.rebuild (s : State) (ctx : SearchContext) (labels : Table LabelEntry) (target : Nat) : List Traversal :=
  s.chain ctx labels Config.nodes target []

end Sys2Proof.Machine
end

