-- ==== Sys2Proof/Machine/Legs.lean ====
section
/-! DEFINITION. Headings, turns and legs (R68 to R72), and the route records a lane completes (R39, R49, R50, R57 to R59,
R73, R75). -/

namespace Sys2Proof.Machine

/-- R68: the heading of a traversal, none for V; the stored class decides V. -/
def Edge.headingOf (e : Edge) (ab : Bool) : Option Nat :=
  if e.cls = .elevator then none
  else e.heading.map fun h => if ab then h else (h + 4) % 8

/-- R69: the turn from one heading to the next, none for NONE. -/
def turnOf (before new : Option Nat) : Option Nat :=
  match before, new with
  | some h, some k => some ((k + 8 - h) % 8)
  | _, _ => none

/-- R70: the leg kind of a traversal, by its stored class and the floors of its ends. -/
def legKindOf (cls : EdgeClass) (fromFloor toFloor : Nat) : LegKind :=
  match cls with
  | .walk => .walk
  | .door => .door
  | .stairs => if fromFloor < toFloor then .stairsUp else .stairsDown
  | .escalator => if fromFloor < toFloor then .escalatorUp else .escalatorDown
  | .elevator => if fromFloor < toFloor then .elevatorUp else .elevatorDown
  | .travelator => .travelator

/-- R70: a stopped escalator or travelator, to be walked. -/
def stoppedFlag (stored resolved : EdgeClass) : Bool :=
  (stored = .escalator && resolved = .stairs) || (stored = .travelator && resolved = .walk)

/-- R70, R71: the leg a traversal starts, after the heading before it. -/
def State.legOf (s : State) (before : Option Nat) (t : Traversal) : Leg :=
  let edge := s.edge t.edge
  let heading := edge.headingOf t.ab
  { kind := legKindOf edge.cls (s.node t.fromNode).floor (s.node t.toNode).floor
    stopped := stoppedFlag edge.cls t.resolved
    turn := turnOf before heading
    heading := heading
    distance := t.length
    time := t.cost
    endNode := t.toNode
    endFloor := (s.node t.toNode).floor
    landmark := (s.node t.toNode).landmark }

/-- R71: the three conditions under which a traversal merges into the current leg. -/
def mergesInto (current next : Leg) : Bool :=
  current.kind = .walk && next.kind = .walk && next.turn = some 0 && current.landmark = none

/-- R71: the current leg with a merged traversal's. -/
def Leg.merged (current next : Leg) : Leg :=
  { current with
    distance := current.distance + next.distance
    time := current.time + next.time
    endNode := next.endNode
    endFloor := next.endFloor
    landmark := next.landmark }

/-- R71: a traversal's leg joins the legs before it, latest first. -/
def joinLeg (legs : List Leg) (next : Leg) : List Leg :=
  match legs with
  | [] => [next]
  | current :: earlier => if mergesInto current next then current.merged next :: earlier else next :: current :: earlier

/-- R69: each traversal's own leg, its turn taken from the heading before it. -/
def State.ownLegs (s : State) : Option Nat → List Traversal → List Leg
  | _, [] => []
  | before, t :: rest =>
    let leg := s.legOf before t
    leg :: s.ownLegs leg.heading rest

/-- R71: the condensed legs of a route, in route order. The joining node of a merge is the end node of the current leg,
whose landmark the leg carries. -/
def State.condense (s : State) (facing : Nat) (route : List Traversal) : List Leg :=
  ((s.ownLegs (some facing) route).foldl joinLeg []).reverse

/-- R72: the ONWARD leg that stands for these condensed legs. -/
def State.onwardLeg (s : State) (target : Nat) (rest : List Leg) : Leg :=
  { kind := .onward
    stopped := false
    turn := rest.head?.bind Leg.turn
    heading := rest.head?.bind Leg.heading
    distance := (rest.map Leg.distance).sum
    time := (rest.map Leg.time).sum
    endNode := target
    endFloor := (s.node target).floor
    landmark := (s.node target).landmark }

/-- R72: the leg-count check: the record's legs, and whether SUMMARISED is set. -/
def State.checkLegs (s : State) (target : Nat) (legs : List Leg) : List Leg × Bool :=
  if legs.length ≤ Config.legs then (legs, false)
  else (legs.take (Config.legs - 1) ++ [s.onwardLeg target (legs.drop (Config.legs - 1))], true)

/-- R59, R39: a record of no route: everything but the status, the reached member and the target. -/
def recordWithoutRoute (lane : Lane) (request : Request) (ctx : SearchContext) (status : RouteStatus) : RouteRecord :=
  { tag := request.tag
    screen := request.screen
    destination := request.destination
    category := ctx.category
    status := status
    trimmed := lane.trimmed
    summarised := false
    egress := lane.egress
    destClosed := lane.destClosed
    clockUnset := lane.clockUnset
    reached := none
    target := none
    totalTime := 0
    seconds := 0
    minutes := 0
    distance := 0
    epoch := ctx.epoch
    generation := ctx.generation
    legs := [] }

/-- R50: the record of a screen that stands at a target. -/
def State.arrivedRecord (s : State) (lane : Lane) (request : Request) (ctx : SearchContext) : RouteRecord :=
  { recordWithoutRoute lane request ctx .arrived with
    reached := memberIndexOf lane.targets ctx.origin
    target := some (ctx.origin, (s.node ctx.origin).floor) }

/-- R58, R36 to R38, R73: the record of a route to a settled target of this label. -/
def State.foundRecord (s : State) (lane : Lane) (request : Request) (ctx : SearchContext)
    (labels : Table LabelEntry) (target label : Nat) : RouteRecord :=
  let route := s.rebuild ctx labels target
  let legs := s.checkLegs target (s.condense ctx.facing route)
  { recordWithoutRoute lane request ctx .found with
    summarised := legs.2
    reached := memberIndexOf lane.targets target
    target := some (target, (s.node target).floor)
    totalTime := label
    seconds := secondsOf label
    minutes := minutesOf (secondsOf label)
    distance := (route.map Traversal.length).sum
    legs := legs.1 }

end Sys2Proof.Machine
end

