-- ==== Sys2Proof/Machine/Tables.lean ====
section
/-! DEFINITION. The records of the site tables: their capacities and sizes, the range of every field (R2 to R12, R17 step
4), their words and bytes (R179), and reading and writing one record of any table. -/

namespace Sys2Proof.Machine

/-- R1: the records of each table. -/
def TableId.capacity : TableId → Nat
  | .header => 1 | .nodes => 2048 | .edges => 4096 | .adjacency => 8192 | .groups => 256 | .members => 2048
  | .directory => 1024 | .gates => 64 | .profiles => 8 | .screens => 64 | .channels => 64 | .schedule => 128

/-- R179: the bytes of a record of each table. -/
def TableId.recordBytes : TableId → Nat
  | .header => 24 | .nodes => 8 | .edges => 20 | .adjacency => 4 | .groups => 8 | .members => 4
  | .directory => 8 | .gates => 4 | .profiles => 12 | .screens => 12 | .channels => 32 | .schedule => 12

/-- R161, R179: the tables in the order of the image. -/
def TableId.imageOrder : List TableId :=
  [.nodes, .edges, .adjacency, .groups, .members, .directory, .gates, .profiles, .screens, .channels, .schedule]

/-- R1: how many records of a table belong to the site: a counted table's count, a fixed table's capacity. -/
def Header.recordsOf (h : Header) : TableId → Nat
  | .header => 1
  | .nodes => h.nodeCount
  | .edges => h.edgeCount
  | .adjacency => h.adjacencyCount
  | .groups => h.groupCount
  | .members => h.memberCount
  | .directory => h.directoryCount
  | .gates => 64
  | .profiles => 8
  | .screens => 64
  | .channels => 64
  | .schedule => h.scheduleCount

/-! ### Ranges -/

/-- An optional field is absent or below its bound. -/
def optionBelow (bound : Nat) : Option Nat → Bool
  | none => true
  | some n => n < bound

/-- R12: the header's field ranges. -/
def Header.inRange (h : Header) : Bool :=
  h.nodeCount ≤ 2048 && h.edgeCount ≤ 4096 && h.adjacencyCount ≤ 8192 && h.groupCount ≤ 256 && h.memberCount ≤ 2048
    && h.directoryCount ≤ 1024 && h.scheduleCount ≤ 128 && h.exitGroup ≤ 255
    && 16 ≤ h.fBusy && h.fBusy ≤ 255 && 16 ≤ h.fCrowded && h.fCrowded ≤ 255 && 16 ≤ h.fUnknown && h.fUnknown ≤ 255

/-- R2. -/
def Node.inRange (n : Node) : Bool :=
  n.floor ≤ 15 && optionBelow 1024 n.landmark && n.adjacencyStart ≤ 8191 && n.adjacencyCount ≤ 8

/-- R3. -/
def Edge.inRange (e : Edge) : Bool :=
  e.a ≤ 2047 && e.b ≤ 2047 && e.length ≤ 4095 && optionBelow 8 e.heading && e.rideCode ≤ 15
    && optionBelow 64 e.gate && optionBelow 64 e.channel

/-- R6. -/
def Group.inRange (g : Group) : Bool := g.memberStart ≤ 2047 && 1 ≤ g.memberCount && g.memberCount ≤ 16

/-- R6. -/
def Member.inRange (m : Member) : Bool := m.node ≤ 2047 && optionBelow 64 m.gate

/-- R7: the second field is 0-255 for a GROUP entry and 0-2047 otherwise. -/
def DirectoryEntry.inRange (d : DirectoryEntry) : Bool :=
  (if d.kind = .group then d.ref ≤ 255 else d.ref ≤ 2047) && d.category ≤ 63 && optionBelow 64 d.ownGate

/-- R8. -/
def Profile.inRange (p : Profile) : Bool :=
  40 ≤ p.pace && p.pace ≤ 200 && 16 ≤ p.stairFactor && p.stairFactor ≤ 64 && p.liftWait ≤ 1200 && p.aversion ≤ 4

/-- R9. -/
def Screen.inRange (s : Screen) : Bool := s.node ≤ 2047 && s.facing ≤ 7 && s.profile ≤ 7 && s.priority ≤ 3

/-- R10, with the two ranges that depend on Tb. -/
def ChannelConfig.inRange (c : ChannelConfig) : Bool :=
  c.reference ≤ 63 && c.weight ≤ 8191 && 1 ≤ c.busy && c.busy ≤ 1023 && c.busy ≤ c.crowded && c.crowded ≤ 1023
    && c.hysteresis < c.busy && 1 ≤ c.ceiling && c.ceiling ≤ 1023 && 1 ≤ c.debounce && c.debounce ≤ 8
    && c.filterShift ≤ 7 && 2 ≤ c.averageShift && c.averageShift ≤ 12 && c.activationShift ≤ 7 && c.settleBand ≤ 255
    && c.plateauSamples ≤ 255 && 1 ≤ c.staleLimit && c.staleLimit ≤ 15

/-- The bound of a target's index: 4096 for EDGE and MOTION, 64 for GATE (R11). -/
def TargetKind.indexBound : TargetKind → Nat
  | .edge => 4096
  | .motion => 4096
  | .gate => 64

/-- The value belongs to the target kind (R11). -/
def Setting.belongsTo (v : Setting) (kind : TargetKind) : Bool :=
  match v, kind with
  | .motion _, .motion => true
  | .closure _, .edge => true
  | .closure _, .gate => true
  | _, _ => false

/-- R11: the day set is not empty, and the value belongs to the target kind. -/
def ScheduleEntry.inRange (e : ScheduleEntry) : Bool :=
  e.minute ≤ 1439 && e.days ≠ 0 && e.target.index < e.target.kind.indexBound && e.value.belongsTo e.target.kind

/-! ### Words (R179: each field one two-byte word, in the order of the chapter) -/

/-- The word of an optional field. -/
def optionWord (o : Option Nat) : Nat := o.getD 0xFFFF

/-- The optional field of a word; its range is checked with the record. -/
def optionOfWord (w : Nat) : Option Nat := if w = 0xFFFF then none else some w

def Header.words (h : Header) : List Nat :=
  [h.nodeCount, h.edgeCount, h.adjacencyCount, h.groupCount, h.memberCount, h.directoryCount, h.scheduleCount,
   h.exitGroup, h.fBusy, h.fCrowded, h.fUnknown]

def Header.ofWords : List Nat → Option Header
  | [n, e, a, g, m, d, s, exit, fb, fc, fu] =>
    some { nodeCount := n, edgeCount := e, adjacencyCount := a, groupCount := g, memberCount := m, directoryCount := d,
           scheduleCount := s, exitGroup := exit, fBusy := fb, fCrowded := fc, fUnknown := fu }
  | _ => none

def Node.words (n : Node) : List Nat := [n.floor, optionWord n.landmark, n.adjacencyStart, n.adjacencyCount]

def Node.ofWords : List Nat → Option Node
  | [f, l, s, c] => some { floor := f, landmark := optionOfWord l, adjacencyStart := s, adjacencyCount := c }
  | _ => none

def Edge.words (e : Edge) : List Nat :=
  [e.a, e.b, e.cls.code, e.length, headingCode e.heading, e.direction.code, e.rideCode, optionWord e.gate,
   optionWord e.channel, flagCode e.closedByDefault]

def Edge.ofWords : List Nat → Option Edge
  | [a, b, cls, len, h, d, r, g, c, x] =>
    match EdgeClass.ofCode cls, headingOfCode h, DirectionMode.ofCode d, flagOfCode x with
    | some cls, some heading, some direction, some closed =>
      some { a := a, b := b, cls := cls, length := len, heading := heading, direction := direction, rideCode := r,
             gate := optionOfWord g, channel := optionOfWord c, closedByDefault := closed }
    | _, _, _, _ => none
  | _ => none

def Group.words (g : Group) : List Nat := [g.selection.code, g.memberStart, g.memberCount]

def Group.ofWords : List Nat → Option Group
  | [m, s, c] => (Selection.ofCode m).map fun sel => { selection := sel, memberStart := s, memberCount := c }
  | _ => none

def Member.words (m : Member) : List Nat := [m.node, optionWord m.gate]

def Member.ofWords : List Nat → Option Member
  | [n, g] => some { node := n, gate := optionOfWord g }
  | _ => none

def DirectoryEntry.words (d : DirectoryEntry) : List Nat := [d.kind.code, d.ref, d.category, optionWord d.ownGate]

def DirectoryEntry.ofWords : List Nat → Option DirectoryEntry
  | [k, r, c, g] =>
    (DirectoryKind.ofCode k).map fun kind => { kind := kind, ref := r, category := c, ownGate := optionOfWord g }
  | _ => none

/-- The sum STAIRS 1, ESCALATOR 2, TRAVELATOR 4, ELEVATOR 8 (R179). -/
def Profile.allowedCode (p : Profile) : Nat :=
  flagCode p.stairs + 2 * flagCode p.escalator + 4 * flagCode p.travelator + 8 * flagCode p.elevator

def Profile.words (p : Profile) : List Nat := [p.pace, p.allowedCode, p.stairFactor, p.liftWait, p.aversion]

def Profile.ofWords : List Nat → Option Profile
  | [p, set, sf, w, a] =>
    if set < 16 then
      some { pace := p, stairs := set.testBit 0, escalator := set.testBit 1, travelator := set.testBit 2,
             elevator := set.testBit 3, stairFactor := sf, liftWait := w, aversion := a }
    else none
  | _ => none

def Screen.words (s : Screen) : List Nat := [flagCode s.enabled, s.node, s.facing, s.profile, s.priority]

def Screen.ofWords : List Nat → Option Screen
  | [e, n, f, p, q] =>
    (flagOfCode e).map fun enabled => { enabled := enabled, node := n, facing := f, profile := p, priority := q }
  | _ => none

def ChannelConfig.words (c : ChannelConfig) : List Nat :=
  [flagCode c.enabled, c.role.code, c.reference, c.weight, c.busy, c.crowded, c.hysteresis, c.ceiling, c.debounce,
   c.filterShift, c.averageShift, c.activationShift, c.settleBand, c.plateauSamples, c.staleLimit]

def ChannelConfig.ofWords : List Nat → Option ChannelConfig
  | [e, r, ref, wf, tb, tc, h, a, n, bf, bl, ba, sb, ps, sl] =>
    match flagOfCode e, Role.ofCode r with
    | some enabled, some role =>
      some { enabled := enabled, role := role, reference := ref, weight := wf, busy := tb, crowded := tc,
             hysteresis := h, ceiling := a, debounce := n, filterShift := bf, averageShift := bl, activationShift := ba,
             settleBand := sb, plateauSamples := ps, staleLimit := sl }
    | _, _ => none
  | _ => none

def ScheduleEntry.words (e : ScheduleEntry) : List Nat :=
  [flagCode e.enabled, e.minute, e.days.toNat, e.target.kind.code, e.target.index, e.value.code]

def ScheduleEntry.ofWords : List Nat → Option ScheduleEntry
  | [e, m, d, k, i, v] =>
    match flagOfCode e, TargetKind.ofCode k with
    | some enabled, some kind =>
      if d < 128 then
        (Setting.ofCode kind v).map fun value =>
          { enabled := enabled, minute := m, days := BitVec.ofNat 7 d, target := { kind := kind, index := i },
            value := value }
      else none
    | _, _ => none
  | _ => none

/-! ### Bytes -/

/-- The words of a record as bytes, zero filled to a multiple of four (R179). -/
def wordsToBytes (words : List Nat) : List Byte :=
  words.flatMap le16 ++ (if words.length % 2 = 0 then [] else [0, 0])

/-- The first `count` words of a record's bytes; fill bytes are ignored (R179). -/
def bytesToWords (count : Nat) (bytes : List Byte) : List Nat :=
  (List.range count).map fun i => wordAt bytes (2 * i)

/-- A record of a site table. -/
inductive Record where
  | header (r : Header)
  | node (r : Node)
  | edge (r : Edge)
  | adjacency (edge : Nat)
  | group (r : Group)
  | member (r : Member)
  | directory (r : DirectoryEntry)
  | gate (r : Closure)
  | profile (r : Profile)
  | screen (r : Screen)
  | channel (r : ChannelConfig)
  | schedule (r : ScheduleEntry)
  deriving DecidableEq, Repr

/-- Every field of the record is in its range (R17 step 4, R161). -/
def Record.inRange : Record → Bool
  | .header r => r.inRange
  | .node r => r.inRange
  | .edge r => r.inRange
  | .adjacency e => e ≤ 4095
  | .group r => r.inRange
  | .member r => r.inRange
  | .directory r => r.inRange
  | .gate _ => true
  | .profile r => r.inRange
  | .screen r => r.inRange
  | .channel r => r.inRange
  | .schedule r => r.inRange

/-- The words of a record (R179). -/
def Record.words : Record → List Nat
  | .header r => r.words
  | .node r => r.words
  | .edge r => r.words
  | .adjacency e => [e]
  | .group r => r.words
  | .member r => r.words
  | .directory r => r.words
  | .gate r => [r.code]
  | .profile r => r.words
  | .screen r => r.words
  | .channel r => r.words
  | .schedule r => r.words

/-- The fields of a record of each table (R2 to R12). -/
def TableId.fields : TableId → Nat
  | .header => 11 | .nodes => 4 | .edges => 10 | .adjacency => 1 | .groups => 3 | .members => 2
  | .directory => 4 | .gates => 1 | .profiles => 5 | .screens => 5 | .channels => 15 | .schedule => 6

/-- The record that words encode, none where a word encodes no value of its field (R179). -/
def Record.ofWords (t : TableId) (words : List Nat) : Option Record :=
  match t with
  | .header => (Header.ofWords words).map .header
  | .nodes => (Node.ofWords words).map .node
  | .edges => (Edge.ofWords words).map .edge
  | .adjacency => words.head?.map .adjacency
  | .groups => (Group.ofWords words).map .group
  | .members => (Member.ofWords words).map .member
  | .directory => (DirectoryEntry.ofWords words).map .directory
  | .gates => words.head?.bind Closure.ofCode |>.map .gate
  | .profiles => (Profile.ofWords words).map .profile
  | .screens => (Screen.ofWords words).map .screen
  | .channels => (ChannelConfig.ofWords words).map .channel
  | .schedule => (ScheduleEntry.ofWords words).map .schedule

/-- The record a record's bytes stand for, none where a field is out of range or encodes no value (R17 step 4, R161). -/
def Record.ofBytes (t : TableId) (bytes : List Byte) : Option Record :=
  (Record.ofWords t (bytesToWords t.fields bytes)).filter Record.inRange

/-- The bytes of a record (R179). -/
def Record.bytes (r : Record) : List Byte := wordsToBytes r.words

/-- The record of a table at an index as the Site Store holds it (R18). -/
def SiteStore.record (s : SiteStore) (t : TableId) (i : Nat) : Record :=
  match t with
  | .header => .header s.header
  | .nodes => .node (Table.get .cleared s.nodes i)
  | .edges => .edge (Table.get .cleared s.edges i)
  | .adjacency => .adjacency (Table.get 0 s.adjacency i)
  | .groups => .group (Table.get .cleared s.groups i)
  | .members => .member (Table.get .cleared s.members i)
  | .directory => .directory (Table.get .cleared s.directory i)
  | .gates => .gate (Table.get .opened s.gates i)
  | .profiles => .profile (Table.get .cleared s.profiles i)
  | .screens => .screen (Table.get .cleared s.screens i)
  | .channels => .channel (Table.get .cleared s.channels i)
  | .schedule => .schedule (Table.get .cleared s.schedule i)

/-- A record replaces the one at an index of its table, whole (R17). -/
def SiteStore.setRecord (s : SiteStore) (i : Nat) : Record → SiteStore
  | .header r => { s with header := r }
  | .node r => { s with nodes := Table.set .cleared s.nodes i r }
  | .edge r => { s with edges := Table.set .cleared s.edges i r }
  | .adjacency edge => { s with adjacency := Table.set 0 s.adjacency i edge }
  | .group r => { s with groups := Table.set .cleared s.groups i r }
  | .member r => { s with members := Table.set .cleared s.members i r }
  | .directory r => { s with directory := Table.set .cleared s.directory i r }
  | .gate r => { s with gates := Table.set .opened s.gates i r }
  | .profile r => { s with profiles := Table.set .cleared s.profiles i r }
  | .screen r => { s with screens := Table.set .cleared s.screens i r }
  | .channel r => { s with channels := Table.set .cleared s.channels i r }
  | .schedule r => { s with schedule := Table.set .cleared s.schedule i r }

/-- Records replace consecutive ones from a first index (R17). -/
def SiteStore.setRecords (s : SiteStore) : Nat → List Record → SiteStore
  | _, [] => s
  | first, r :: rest => (s.setRecord first r).setRecords (first + 1) rest

/-- The bytes of `count` consecutive records from a first index (R18). -/
def SiteStore.recordsBytes (s : SiteStore) (t : TableId) (first count : Nat) : List Byte :=
  (List.range count).flatMap fun i => (s.record t (first + i)).bytes

/-- The image length of tables with this header: 32 plus each table's records times its record size (R160, H4). -/
def Header.imageLength (h : Header) : Nat :=
  Config.headerBytes + (TableId.imageOrder.map fun t => h.recordsOf t * t.recordBytes).sum

end Sys2Proof.Machine
end

