-- ==== Sys2Proof/Machine/Operands.lean ====
section
/-! DEFINITION. The operands of the request commands: the payload lengths their layouts allow (R168) and the payloads'
fields (R179). -/

namespace Sys2Proof.Machine

/-- The payload length is one the request's layout allows (R168, R179). TABLE WRITE carries whole records of the table its
first byte names, in a payload that fits a frame; when the byte names no table, the request is handed on. One of 1 or 2 bytes
is answered BAD_LENGTH even when its table byte names no table, since it lacks the first index of the layout: a DESIGN CHOICE
between two sentences of R168 (notes/assumptions/30.md). -/
def RequestKind.lengthAllowed (kind : RequestKind) (payload : List Byte) : Bool :=
  match kind with
  | .ackStart => payload.length = 0
  | .status => payload.length = 0
  | .softReset => payload.length = 0
  | .siteOpen => payload.length = 0
  | .siteClose => payload.length = 0
  | .turnNow => payload.length = 0
  | .egressEnter => payload.length = 0
  | .egressResume => payload.length = 0
  | .setParam => payload.length = 3
  | .getParam => payload.length = 1
  | .tableWrite =>
    3 ≤ payload.length && payload.length ≤ Config.payloadBytes && match TableId.ofCode (byteAt payload 0) with
      | some t => (payload.length - 3) % t.recordBytes = 0
      | none => true
  | .tableRead => payload.length = 5
  | .siteLoad => payload.length = 4
  | .siteDump => payload.length = 4
  | .condition => payload.length = 4
  | .conditionRead => payload.length = 3
  | .setClock => payload.length = 5
  | .route => payload.length = 7
  | .cancel => payload.length = 1
  | .collect => payload.length = 1
  | .screenState => payload.length = 1
  | .flowRead => payload.length = 1

/-- A request of this kind with this payload, taken by its block (R168, R169, R171); a frame whose payload exceeds 1024 bytes
is discarded and answered ERROR, whatever its kind. -/
def State.take (s : State) (kind : RequestKind) (payload : List Byte) (block : State → Answer) : State :=
  if Config.payloadBytes < payload.length then s.answerError .badLength
  else s.request kind (kind.lengthAllowed payload) block

/-- The profile choice of a byte: FFh is the screen default (R179). -/
def profileChoice (byte : Nat) : Option Nat := if byte = 0xFF then none else some byte

/-- The request a ROUTE payload carries, with no pass yet (R87, R89, R179). -/
def Request.ofPayload (payload : List Byte) : Request :=
  { screen := byteAt payload 0
    destination := wordAt payload 1
    choice := profileChoice (byteAt payload 3)
    tag := wordAt payload 4
    assist := byteAt payload 6 ≠ 0
    passes := 0 }

/-- The payload of a ROUTE request (R179). -/
def Request.payload (r : Request) : List Byte :=
  le8 r.screen ++ le16 r.destination ++ opt8 r.choice ++ le16 r.tag ++ le8 (flagCode r.assist)

/-- The target a CONDITION or CONDITION READ payload names, none for an unknown target kind (R103, R179). -/
def Target.ofPayload (payload : List Byte) : Option Target :=
  (TargetKind.ofCode (byteAt payload 0)).map fun kind => { kind := kind, index := wordAt payload 1 }

end Sys2Proof.Machine
end

