-- ==== Sys2Proof/Machine/Store.lean ====
section
/-! DEFINITION. The Result Store (R76 to R84): storing a record, holding lanes, freeing a slot and granting it, and the
commands RECORD_COMPLETE, SLOT_GRANT, HOLD_TIMER_EXPIRY and COLLECT. -/

namespace Sys2Proof.Machine

/-- A lane's record is stored in a slot: the hold timer starts with the result hold of that moment (R80), the screen
becomes READY with the slot, RESULT READY is offered and the lane becomes FREE (R77, R79). -/
def State.storeRecord (s : State) (n l : Nat) (record : RouteRecord) : State :=
  let s := s.setSlot n (some { record := record, screen := record.screen, hold := s.link.parameters.resultHold })
  let s := s.setScreen record.screen (.ready n)
  let s := s.offer (.resultReady record.screen n record.tag record.status)
  s.freeLane l

/-- No slot is FREE: the lane becomes HOLDING with its record and joins the end of the holders list (R60, R77). -/
def State.hold (s : State) (l : Nat) (record : RouteRecord) : State :=
  let s := s.setLane l { s.lane l with state := .holding, record := some record }
  s.setHolders (s.store.holders ++ [l])

/-- A lane with its record complete asks for a slot (R60, R77). -/
def State.askSlot (s : State) (l : Nat) (record : RouteRecord) : State :=
  match s.lowestFreeSlot with
  | some n => s.storeRecord n l record
  | none => s.hold l record

/-- A FREE slot is granted to the lane at the head of the holders list, if there is one (R79). -/
def State.grantSlot (s : State) (n : Nat) : State :=
  match s.store.holders with
  | [] => s
  | l :: rest =>
    match (s.lane l).record with
    | none => s
    | some record => (s.setHolders rest).storeRecord n l record

/-- A slot becomes FREE and its screen IDLE, and the slot is offered to the holders list on the same freeing (R79). -/
def State.freeSlot (s : State) (n screen : Nat) : State :=
  ((s.setSlot n none).setScreen screen .idle).grantSlot n

/-! ### RECORD_COMPLETE (R52 to R60) -/

/-- R58: a lane that has found a route stays SEARCHING while it rebuilds; its tables stand as the search left them. -/
def State.withSearch (s : State) (l : Nat) (f : Frontier) : State :=
  s.setLane l { s.lane l with labels := f.labels, heap := f.heap, trimmed := f.trimmed }

/-- R52 to R59: a SEARCHING lane's search, rebuilding and legs, ending in its complete record and the slot exchange. -/
def State.completeSearch (s : State) (l : Nat) (request : Request) (ctx : SearchContext) : State :=
  let (f, ending) := s.search (s.lane l) ctx
  let s := s.withSearch l f
  match ending with
  | some (target, label) => s.askSlot l (s.foundRecord (s.lane l) request ctx f.labels target label)
  | none => s.askSlot l (recordWithoutRoute (s.lane l) request ctx .unreachable)

/-- RECORD_COMPLETE for a lane; without effect on a lane that is not SEARCHING. -/
def State.recordComplete (s : State) (l : Nat) : State :=
  let lane := s.lane l
  if lane.state = .searching then
    match lane.request, lane.context with
    | some request, some ctx => s.completeSearch l request ctx
    | _, _ => s
  else s

/-- R60. -/
def execRecordComplete (lane : Fin 4) (s : State) : Host.Outcome State Fault Refusal :=
  .next (s.event fun s => s.recordComplete lane.val)

/-! ### SLOT_GRANT (R79) -/

/-- A FREE slot goes to the head of the holders list. -/
def State.slotGrant (s : State) : State :=
  match s.lowestFreeSlot with
  | some n => s.grantSlot n
  | none => s

/-- R79. Every freeing grants its slot itself, so this command finds work only where a FREE slot stands beside a lane in
the holders list (notes/assumptions/5.md). -/
def execSlotGrant (s : State) : Host.Outcome State Fault Refusal :=
  .next (s.event State.slotGrant)

/-! ### HOLD_TIMER_EXPIRY (R81) -/

/-- A slot's hold timer runs out: RESULT EXPIRED is offered, and the slot is freed; without effect on a FREE slot. -/
def State.holdExpiry (s : State) (n : Nat) : State :=
  match s.slot n with
  | none => s
  | some held => (s.offer (.resultExpired held.screen held.record.tag)).freeSlot n held.screen

/-- R81. -/
def execHoldTimerExpiry (slot : Fin 48) (s : State) : Host.Outcome State Fault Refusal :=
  .next (s.event fun s => s.holdExpiry slot.val)

/-! ### COLLECT (R82) -/

/-- R82: the screen's record is delivered and its slot freed. -/
def State.collect (s : State) (screen : Nat) : Answer :=
  if Config.screens ≤ screen then refuse s .badScreen
  else match s.screen screen with
    | .ready n =>
      match s.slot n with
      | some held => { code := .ok, data := held.record.bytes, state := s.freeSlot n screen }
      | none => refuse s .noResult
    | _ => refuse s .noResult

/-- R82. -/
def execCollect (payload : List Byte) (s : State) : Host.Outcome State Fault Refusal :=
  .next (s.take .collect payload fun s => s.collect (byteAt payload 0))

end Sys2Proof.Machine
end

