-- ==== Sys2Proof/Machine/Dispatcher.lean ====
section
/-! DEFINITION. The Request Dispatcher (R85 to R100): accepting, granting, cancelling, handing back and dropping route
requests, and the commands ROUTE, GRANT, CANCEL and SCREEN_STATE. -/

namespace Sys2Proof.Machine

/-! ### Checks (R88) -/

/-- Check 3 of R88 fails: the screen number is 64 or more, or its record is disabled. -/
def State.badScreen (s : State) (screen : Nat) : Bool :=
  Config.screens ≤ screen || !(s.screenRecord screen).enabled

/-- Check 4 of R88 fails: the destination is 1024 or more, at or above the directory count, or UNUSED. -/
def State.badDestination (s : State) (destination : Nat) : Bool :=
  1024 ≤ destination || s.site.header.directoryCount ≤ destination
    || (s.directoryEntry destination).kind = .unused

/-- Check 5 of R88 fails: a number above 7 that is not the screen default. -/
def badChoice (choice : Option Nat) : Bool :=
  match choice with
  | none => false
  | some p => 7 < p

/-- R88: the code of the first check after check 1 that fails, none where all pass. -/
def State.routeRefusal (s : State) (r : Request) : Option ReplyCode :=
  if s.site.state ≠ .valid then some .siteUnavailable
  else if s.badScreen r.screen then some .badScreen
  else if s.badDestination r.destination then some .badDestination
  else if badChoice r.choice then some .badProfile
  else match s.screen r.screen with
    | .queued => some .screenBusy
    | .active _ => some .screenBusy
    | .ready _ => some .resultPending
    | .idle => if Config.queueEntries ≤ s.dispatcher.queue.length then some .queueFull else none

/-- R89: the entry of an accepted request. -/
def State.newEntry (s : State) (r : Request) : QueueEntry :=
  { request := r, egressMark := s.egress.mode = .egress }

/-- R88, R89: a ROUTE is checked and appended to the tail. -/
def State.route (s : State) (r : Request) : Answer :=
  match s.routeRefusal r with
  | some code => refuse s code
  | none => accept ((s.setQueue (s.dispatcher.queue ++ [s.newEntry r])).setScreen r.screen .queued)

/-- R88, R89. -/
def execRoute (payload : List Byte) (s : State) : Host.Outcome State Fault Refusal :=
  .next (s.take .route payload fun s => s.route (Request.ofPayload payload))

/-! ### GRANT (R91, R92) -/

/-- R91: the effective priority of a queue entry; in EGRESS mode every entry has 3 (R100). -/
def State.priorityOf (s : State) (e : QueueEntry) : Nat :=
  match s.egress.mode with
  | .egress => 3
  | .normal =>
    if e.request.assist || Config.passesMost ≤ e.request.passes then 3 else (s.screenRecord e.request.screen).priority

/-- The highest of a list of priorities. -/
def highest (priorities : List Nat) : Nat := priorities.foldl max 0

/-- R92: the place in the queue of the entry to grant: the oldest of the highest effective priority, and so the head in
EGRESS mode. -/
def State.chosen (s : State) : Option Nat :=
  let priorities := s.dispatcher.queue.map s.priorityOf
  priorities.findIdx? (· = highest priorities)

/-- R92: in NORMAL mode an entry passed over by a request of this higher priority gains one pass. -/
def State.passed (s : State) (priority : Nat) (e : QueueEntry) : QueueEntry :=
  if s.egress.mode = .normal && s.priorityOf e < priority then
    { e with request := { e.request with passes := e.request.passes + 1 } }
  else e

/-- R92: the four conditions of a grant. The immediate turn of an entry to VALID is completed within that entry. -/
def State.grantable (s : State) : Bool :=
  s.lowestFreeLane.isSome && !s.dispatcher.queue.isEmpty && s.site.state = .valid && s.conditions.turn = .idle

/-- R43 item 4: the resolved profile. -/
def State.resolvedProfile (s : State) (r : Request) : Nat :=
  match s.egress.mode with
  | .egress => 7
  | .normal => r.choice.getD (s.screenRecord r.screen).profile

/-- R43: the context a lane takes at grant. -/
def State.contextOf (s : State) (r : Request) : SearchContext :=
  let d := s.directoryEntry r.destination
  { mode := s.egress.mode
    profile := s.resolvedProfile r
    origin := (s.screenRecord r.screen).node
    facing := (s.screenRecord r.screen).facing
    kind := d.kind
    ref := d.ref
    category := d.category
    ownGate := d.ownGate
    epoch := s.conditions.epoch
    generation := s.site.generation
    clockSet := s.schedule.clockSet }

/-- R43, R46 to R51: the lane as it is with its target set formed. -/
def State.searchingLane (s : State) (l : Nat) (r : Request) : Lane :=
  let ctx := s.contextOf r
  { s.lane l with
    state := .searching
    request := some r
    context := some ctx
    targets := s.targetSet ctx
    trimmed := false
    egress := ctx.mode = .egress
    destClosed := s.destClosed ctx
    clockUnset := !ctx.clockSet
    record := none }

/-- R43, R49, R50: the lane takes the request; with an empty target set, or with the origin in it, it completes its record
at once and asks for a slot. -/
def State.startSearch (s : State) (l : Nat) (r : Request) : State :=
  let lane := s.searchingLane l r
  let ctx := s.contextOf r
  let s := s.setLane l lane
  if lane.targets.isEmpty then s.askSlot l (recordWithoutRoute lane r ctx .noOpenEntrance)
  else if isTarget lane.targets ctx.origin then s.askSlot l (s.arrivedRecord lane r ctx)
  else s

/-- R92: the entry at a place of the queue is granted to a lane, and passes are given to those ahead of it. -/
def State.grantEntry (s : State) (l place : Nat) : State :=
  match s.dispatcher.queue[place]? with
  | none => s
  | some e =>
    let ahead := (s.dispatcher.queue.take place).map (s.passed (s.priorityOf e))
    let s := s.setQueue (ahead ++ s.dispatcher.queue.drop (place + 1))
    let s := s.setScreen e.request.screen (.active l)
    s.startSearch l e.request

/-- GRANT: one grant to the lowest FREE lane; without effect while a condition of R92 fails. -/
def State.grant (s : State) : State :=
  if s.grantable then
    match s.lowestFreeLane, s.chosen with
    | some l, some place => s.grantEntry l place
    | _, _ => s
  else s

/-- R92. -/
def execGrant (s : State) : Host.Outcome State Fault Refusal :=
  .next (s.event State.grant)

/-! ### CANCEL (R94) -/

/-- A lane leaves the holders list, the lanes after it moving up (R78). -/
def State.leaveHolders (s : State) (l : Nat) : State :=
  s.setHolders (s.store.holders.filter fun h => h ≠ l)

/-- R62, R63: a lane abandons its search or discards its record and becomes FREE. -/
def State.withdraw (s : State) (l : Nat) : State := (s.leaveHolders l).freeLane l

/-- R94: whatever a screen has outstanding is ended. -/
def State.cancel (s : State) (screen : Nat) : Answer :=
  if Config.screens ≤ screen then refuse s .badScreen
  else match s.screen screen with
    | .idle => refuse s .nothingPending
    | .queued =>
      accept ((s.setQueue (s.dispatcher.queue.filter fun e => e.request.screen ≠ screen)).setScreen screen .idle)
    | .active l => accept ((s.withdraw l).setScreen screen .idle)
    | .ready n => accept (s.freeSlot n screen)

/-- R94. -/
def execCancel (payload : List Byte) (s : State) : Host.Outcome State Fault Refusal :=
  .next (s.take .cancel payload fun s => s.cancel (byteAt payload 0))

/-! ### Dropping and handing back (R96, R97) -/

/-- A request is dropped: its screen becomes IDLE and REQUEST DROPPED is offered (R98). -/
def State.drop (reason : DropReason) (s : State) (r : Request) : State :=
  (s.setScreen r.screen .idle).offer (.requestDropped r.screen r.tag reason)

/-- R97: the site leaves VALID: every entry is removed, head to tail. -/
def State.dropQueue (s : State) : State :=
  ((s.dispatcher.queue.map QueueEntry.request).foldl (State.drop .site) s).setQueue []

/-- The lanes that hand a request back, SL0 first (R96). -/
def State.workingLanes (s : State) : List Nat :=
  (List.range Config.lanes).filter fun l => (s.lane l).state ≠ .free

/-- R96: a handed-back request joins the queue anew: its entry marked for the present mode, its screen QUEUED. -/
def State.requeue (s : State) (requests : List Request) : State :=
  let s := requests.foldl (fun s r => s.setScreen r.screen .queued) s
  s.setQueue (requests.map s.newEntry ++ s.dispatcher.queue)

/-- R96: entries are removed from the tail until the queue holds 32, each with REQUEST DROPPED, reason MODE. -/
def State.trimQueue (s : State) : State :=
  let kept := s.dispatcher.queue.take Config.queueEntries
  let removed := (s.dispatcher.queue.drop Config.queueEntries).reverse
  ((removed.map QueueEntry.request).foldl (State.drop .mode) s).setQueue kept

/-- R96: a handed-back request fails check 3 or 4 of R88 against the present tables. -/
def State.stale (s : State) (r : Request) : Bool := s.badScreen r.screen || s.badDestination r.destination

/-- R96: the dispatcher takes handed-back requests: in VALID it checks them again, drops those that fail and puts the
others at the head; in any other state it drops them all. -/
def State.takeBack (s : State) (requests : List Request) : State :=
  if s.site.state = .valid then
    let dropped := (requests.filter s.stale).foldl (State.drop .site) s
    (dropped.requeue (requests.filter fun r => !s.stale r)).trimQueue
  else requests.foldl (State.drop .site) s

/-- R62, R63, R96: every SEARCHING or HOLDING lane gives up its work, and the dispatcher takes the requests back. -/
def State.handBack (s : State) : State :=
  let lanes := s.workingLanes
  let requests := lanes.filterMap fun l => (s.lane l).request
  (lanes.foldl State.withdraw s).takeBack requests

/-- R90: every entry's egress mark is set or cleared, order and pass counts kept. -/
def State.markQueue (s : State) (mark : Bool) : State :=
  s.setQueue (s.dispatcher.queue.map fun e => { e with egressMark := mark })

/-! ### SCREEN_STATE (R100) -/

/-- The fields of a SCREEN STATE report after the screen state (R100, R179). -/
structure ScreenReport where
  tag : Option Nat
  position : Option Nat
  passes : Option Nat
  priority : Option Nat
  mark : Option Nat
  lane : Option Nat
  laneState : Option Nat
  slot : Option Nat
  deriving DecidableEq, Repr

/-- R100: where a screen's request stands. -/
def State.screenReport (s : State) (screen : Nat) : ScreenReport :=
  let none' : ScreenReport :=
    { tag := none, position := none, passes := none, priority := none, mark := none, lane := none, laneState := none,
      slot := none }
  match s.screen screen with
  | .idle => none'
  | .queued =>
    match s.dispatcher.queue.findIdx? fun e => e.request.screen = screen with
    | none => none'
    | some place =>
      match s.dispatcher.queue[place]? with
      | none => none'
      | some e =>
        { none' with
          tag := some e.request.tag
          position := some (place + 1)
          passes := some e.request.passes
          priority := some (s.priorityOf e)
          mark := some (flagCode e.egressMark) }
  | .active l =>
    { none' with
      tag := (s.lane l).request.map Request.tag
      lane := some l
      laneState := some (s.lane l).state.code }
  | .ready n => { none' with tag := (s.slot n).map fun held => held.record.tag, slot := some n }

/-- The bytes of a SCREEN STATE report (R179). -/
def ScreenReport.bytes (r : ScreenReport) (state : ScreenStatus) : List Byte :=
  le8 state.code ++ opt16 r.tag ++ opt8 r.position ++ opt8 r.passes ++ opt8 r.priority ++ opt8 r.mark ++ opt8 r.lane
    ++ opt8 r.laneState ++ opt8 r.slot

/-- R100: SCREEN STATE reports and changes nothing. -/
def State.screenStateReply (s : State) (screen : Nat) : Answer :=
  if Config.screens ≤ screen then refuse s .badScreen
  else { code := .ok, data := (s.screenReport screen).bytes (s.screen screen), state := s }

/-- R100. -/
def execScreenState (payload : List Byte) (s : State) : Host.Outcome State Fault Refusal :=
  .next (s.take .screenState payload fun s => s.screenStateReply (byteAt payload 0))

end Sys2Proof.Machine
end

