-- ==== Sys2Proof/Machine/Conditions.lean ====
section
/-! DEFINITION. The Condition Unit and the Schedule Unit's offers to it (R101 to R116, R140 to R144): the pending list, the
offers of schedule entries with the LATE list, the turns, and the commands CONDITION, CONDITION_READ, TURN_NOW,
TURN_TIMER_EXPIRY and APPLY_STEP. -/

namespace Sys2Proof.Machine

/-! ### The pending list (R104) -/

/-- R104: an edit replaces the value and source of its target's entry in place, or is appended while the list holds fewer
than 64 entries; none when it is refused. -/
def placeEdit (edit : Edit) (edits : List Edit) : Option (List Edit) :=
  if edits.any fun e => e.target = edit.target then
    some (edits.map fun e => if e.target = edit.target then edit else e)
  else if edits.length < Config.pendingEdits then some (edits ++ [edit])
  else none

def State.setEdits (s : State) (edits : List Edit) : State :=
  { s with conditions := { s.conditions with edits := edits } }

/-! ### Schedule offers (R105, R141) -/

def State.setLate (s : State) (late : List Nat) : State := { s with schedule := { s.schedule with late := late } }

/-- The edit a schedule entry fires (R105). -/
def State.scheduleEdit (s : State) (i : Nat) : Edit :=
  let e := s.scheduleEntry i
  { target := e.target, value := e.value, source := .schedule i }

/-- R105: the pending list an offer is placed into, none when the Condition Unit answers REFUSED: the site state is not
VALID, or the list is full without the target. -/
def State.offerPlaced (s : State) (i : Nat) : Option (List Edit) :=
  if s.site.state = .valid then placeEdit (s.scheduleEdit i) s.conditions.edits else none

/-- R141: an entry refused is marked LATE, with SCHEDULE LATE when it is newly marked. -/
def State.markLate (s : State) (i : Nat) : State :=
  if i ∈ s.schedule.late then s
  else
    let s := s.setLate (s.schedule.late ++ [i])
    let e := s.scheduleEntry i
    s.offer (.scheduleLate i e.target e.minute s.schedule.late.length)

/-- R105, R141: a schedule entry is offered, and its answer dealt with. -/
def State.offerEntry (s : State) (i : Nat) : State :=
  match s.offerPlaced i with
  | some edits => (s.setEdits edits).setLate (s.schedule.late.filter fun j => j ≠ i)
  | none => s.markLate i

/-- Entries are offered one after the other (R140, R143, R144). -/
def State.offerEntries (s : State) (entries : List Nat) : State := entries.foldl State.offerEntry s

/-- The current minute (R138). -/
def ScheduleUnit.minute (u : ScheduleUnit) : Nat := u.second / 60

/-- An entry's day set contains a day (R11). -/
def ScheduleEntry.onDay (e : ScheduleEntry) (day : Nat) : Bool := e.days.getLsbD day

/-- R140: the entries due at the current minute, in ascending index order. -/
def State.dueEntries (s : State) : List Nat :=
  (List.range s.site.header.scheduleCount).filter fun i =>
    let e := s.scheduleEntry i
    e.enabled && e.minute = s.schedule.minute && e.onDay s.schedule.day

/-- An entry joins a list kept in ascending order of minute, after those of its own minute. -/
def State.insertByMinute (s : State) (i : Nat) : List Nat → List Nat
  | [] => [i]
  | j :: rest =>
    if (s.scheduleEntry i).minute < (s.scheduleEntry j).minute then i :: j :: rest else j :: s.insertByMinute i rest

/-- R144 item 1: the entries due earlier today, in ascending order of minute and, within a minute, of index. -/
def State.dueToday (s : State) : List Nat :=
  ((List.range s.site.header.scheduleCount).filter fun i =>
    let e := s.scheduleEntry i
    e.enabled && e.minute ≤ s.schedule.minute && e.onDay s.schedule.day).foldl
      (fun sorted i => s.insertByMinute i sorted) []

/-- R144 item 1: the candidates of a catch-up: the LATE entries that are not due today, then those due today. -/
def State.catchUpCandidates (s : State) : List Nat :=
  (s.schedule.late.filter fun i => i ∉ s.dueToday) ++ s.dueToday

/-- R144 item 3: of the candidates for one target only the last stays. -/
def State.lastPerTarget (s : State) : List Nat → List Nat
  | [] => []
  | i :: rest =>
    if rest.any fun j => (s.scheduleEntry j).target = (s.scheduleEntry i).target then s.lastPerTarget rest
    else i :: s.lastPerTarget rest

/-- R144: a catch-up. -/
def State.catchUp (s : State) : State :=
  let survivors := s.lastPerTarget s.catchUpCandidates
  (s.setLate []).offerEntries survivors

/-- R143: the LATE entries are offered again, from the head of the list to its end. -/
def State.refireLate (s : State) : State := s.offerEntries s.schedule.late

/-! ### Turns (R107 to R114) -/

/-- R107: there is something to apply. -/
def State.somethingToApply (s : State) : Bool :=
  !s.conditions.edits.isEmpty
    || (List.range Config.channels).any fun c => (s.channel c).level ≠ s.published c

/-- R111 step 1: one pending entry is written to the live tables. -/
def ConditionUnit.write (u : ConditionUnit) (e : Edit) : ConditionUnit :=
  match e.target.kind, e.value with
  | .edge, .closure c => { u with closures := Table.set .opened u.closures e.target.index c }
  | .gate, .closure c => { u with gates := Table.set .opened u.gates e.target.index c }
  | .motion, .motion m => { u with motions := Table.set none u.motions e.target.index (some m) }
  | _, _ => u

/-- R111 step 2: the channels whose published level is to change. -/
def State.levelChanges (s : State) : Nat :=
  ((List.range Config.channels).filter fun c => (s.channel c).level ≠ s.published c).length

/-- R111 step 2: the Flow Monitor's levels as the published levels. -/
def State.publishedNow (s : State) : Table Level :=
  Table.tabulate .off Config.channels fun c => (s.channel c).level

/-- R111: the apply step's four actions. -/
def State.applied (s : State) : State :=
  let u := s.conditions.edits.foldl ConditionUnit.write s.conditions
  { s with conditions := { u with levels := s.publishedNow, edits := [], epoch := s.conditions.epoch + 1 } }

/-- R111, R112: the apply step, TURN DONE, the turn state IDLE again, and the LATE entries refired (R143). -/
def State.applyTurn (s : State) (cause : TurnCause) : State :=
  let edits := s.conditions.edits.length
  let changes := s.levelChanges
  let s := s.applied
  let s := s.offer (.turnDone s.conditions.epoch edits changes cause)
  let s := { s with conditions := { s.conditions with turn := .idle } }
  s.refireLate

/-- R107: a turn begins in IDLE: applied at once when no lane is SEARCHING, and otherwise WAITING. -/
def State.beginTurn (s : State) (cause : TurnCause) : State :=
  if s.anySearching then { s with conditions := { s.conditions with turn := .waiting cause } }
  else s.applyTurn cause

/-- R107, R108, R109, R145: a cause begins a turn only in IDLE and with something to apply. -/
def State.askTurn (s : State) (cause : TurnCause) : State :=
  if s.conditions.turn = .idle && s.somethingToApply then s.beginTurn cause else s

/-! ### TURN_NOW, TURN_TIMER_EXPIRY and APPLY_STEP -/

/-- R109. -/
def State.turnNow (s : State) : Answer :=
  if !s.site.state.turnTimerRuns then refuse s .siteUnavailable
  else match s.conditions.turn with
    | .waiting _ => refuse s .already
    | .idle => if s.somethingToApply then accept (s.beginTurn .request) else refuse s .nothing

/-- R109. -/
def execTurnNow (payload : List Byte) (s : State) : Host.Outcome State Fault Refusal :=
  .next (s.take .turnNow payload State.turnNow)

/-- R108: the running timer starts again with the present turn period, and a turn may begin; without effect on a stopped
timer. -/
def State.turnTimerExpiry (s : State) : State :=
  match s.conditions.timer with
  | none => s
  | some _ =>
    ({ s with conditions := { s.conditions with timer := some s.link.parameters.turnPeriod } }).askTurn .timer

/-- R108. -/
def execTurnTimerExpiry (s : State) : Host.Outcome State Fault Refusal :=
  .next (s.event State.turnTimerExpiry)

/-- R110, R111: the waiting turn applies once no lane is SEARCHING; without effect before, and when no turn waits. -/
def State.applyStep (s : State) : State :=
  match s.conditions.turn with
  | .waiting cause => if s.anySearching then s else s.applyTurn cause
  | .idle => s

/-- R111. -/
def execApplyStep (s : State) : Host.Outcome State Fault Refusal :=
  .next (s.event State.applyStep)

/-! ### CONDITION and CONDITION_READ (R103, R106) -/

/-- R103 checks 4 and 5: the code with which a target is refused, none where it is a target of the site. -/
def State.targetRefusal (s : State) (t : Target) : Option ReplyCode :=
  match t.kind with
  | .edge => if s.site.header.edgeCount ≤ t.index then some .badIndex else none
  | .gate => if Config.gates ≤ t.index then some .badIndex else none
  | .motion =>
    if s.site.header.edgeCount ≤ t.index then some .badIndex
    else if (s.edge t.index).cls = .escalator || (s.edge t.index).cls = .travelator then none
    else some .badTarget

/-- R103: checks 2 to 7 on a target, none for an unknown kind, and a value code; the edit joins the pending list. -/
def State.condition (s : State) (target : Option Target) (valueCode : Nat) : Answer :=
  if s.site.state ≠ .valid then refuse s .siteUnavailable
  else match target with
    | none => refuse s .badTarget
    | some t => match s.targetRefusal t with
      | some code => refuse s code
      | none => match Setting.ofCode t.kind valueCode with
        | none => refuse s .badValue
        | some value =>
          match placeEdit { target := t, value := value, source := .host } s.conditions.edits with
          | none => refuse s .listFull
          | some edits => { code := .ok, data := le8 edits.length, state := s.setEdits edits }

/-- R103. -/
def execCondition (payload : List Byte) (s : State) : Host.Outcome State Fault Refusal :=
  .next (s.take .condition payload fun s => s.condition (Target.ofPayload payload) (byteAt payload 3))

/-- The motion mode that a moving edge's direction mode stands for (R4). -/
def DirectionMode.motion : DirectionMode → Option Motion
  | .runAB => some .runAB
  | .runBA => some .runBA
  | .stopped => some .stopped
  | .both => none

/-- The closure an edge record gives the edge when the site becomes valid (R102). -/
def Edge.defaultClosure (e : Edge) : Closure := if e.closedByDefault then .closed else .opened

/-- R106: the code of a target's live value. -/
def State.liveCode (s : State) (t : Target) : Option Nat :=
  match t.kind with
  | .edge => some (s.closure t.index).code
  | .motion => (s.motion t.index).map Motion.code
  | .gate => some (s.gate t.index).code

/-- R106: the code of the value entry to VALID gives a target (R102). -/
def State.defaultCode (s : State) (t : Target) : Option Nat :=
  match t.kind with
  | .edge => some (s.edge t.index).defaultClosure.code
  | .motion => (s.edge t.index).direction.motion.map Motion.code
  | .gate => some (s.gateDefault t.index).code

/-- The schedule entry of a source, none for HOST. -/
def Source.entry : Source → Option Nat
  | .host => none
  | .schedule i => some i

/-- R106: the bytes of a CONDITION READ report (R179). -/
def State.conditionReport (s : State) (t : Target) : List Byte :=
  let held := s.conditions.edits.find? fun e => e.target = t
  let place := s.conditions.edits.findIdx? fun e => e.target = t
  opt8 (s.liveCode t) ++ opt8 (s.defaultCode t) ++ opt8 (held.map fun e => e.value.code)
    ++ opt8 (held.map fun e => e.source.code) ++ opt8 (held.bind fun e => e.source.entry)
    ++ opt8 (place.map (· + 1)) ++ le16 s.conditions.epoch.toNat ++ le8 s.conditions.turn.code

/-- R106: CONDITION READ reports and changes nothing. -/
def State.conditionRead (s : State) (target : Option Target) : Answer :=
  if !s.site.state.turnTimerRuns then refuse s .siteUnavailable
  else match target with
    | none => refuse s .badTarget
    | some t => match s.targetRefusal t with
      | some code => refuse s code
      | none => { code := .ok, data := s.conditionReport t, state := s }

/-- R106. -/
def execConditionRead (payload : List Byte) (s : State) : Host.Outcome State Fault Refusal :=
  .next (s.take .conditionRead payload fun s => s.conditionRead (Target.ofPayload payload))

end Sys2Proof.Machine
end

