-- ==== Sys2Proof/Machine/Clock.lean ====
section
/-! DEFINITION. The mall clock and the schedule's firing at the minute (R138 to R145), and the commands TICK,
MINUTE_BOUNDARY and SET_CLOCK. -/

namespace Sys2Proof.Machine

/-- The second after one tick, and whether it wraps the day (R138). -/
def nextSecond (second : Nat) : Nat := if 86399 ≤ second then 0 else second + 1

/-- R138: the day after one tick at this second. -/
def nextDay (second day : Nat) : Nat := if 86399 ≤ second then (day + 1) % 7 else day

/-- R138: a tick advances a SET clock; a tick after which the second is a multiple of 60 is a minute boundary. -/
def ScheduleUnit.ticked (u : ScheduleUnit) : ScheduleUnit :=
  if u.clockSet then
    { u with
      second := nextSecond u.second
      day := nextDay u.second u.day
      boundaryDue := u.boundaryDue || nextSecond u.second % 60 = 0 }
  else u

/-- R138. -/
def execTick (s : State) : Host.Outcome State Fault Refusal :=
  .next (s.event fun s => { s with schedule := s.schedule.ticked })

/-- R140: at a minute boundary the due entries are offered in VALID and DRAINING. Without effect when no tick has made a
boundary. -/
def State.minuteBoundary (s : State) : State :=
  if s.schedule.boundaryDue then
    let s := { s with schedule := { s.schedule with boundaryDue := false } }
    if s.schedule.clockSet && s.site.state.turnTimerRuns then s.offerEntries s.dueEntries else s
  else s

/-- R140. -/
def execMinuteBoundary (s : State) : Host.Outcome State Fault Refusal :=
  .next (s.event State.minuteBoundary)

/-- R139: the clock takes the written value, which is no minute boundary. -/
def State.writeClock (s : State) (second day : Nat) : State :=
  { s with schedule := { s.schedule with clockSet := true, second := second, day := day, boundaryDue := false } }

/-- R139, R145: SET CLOCK, with its catch-up and turn request in VALID and DRAINING. -/
def State.setClock (s : State) (second day : Nat) : Answer :=
  if 86399 < second || 6 < day then refuse s .badValue
  else
    let s := s.writeClock second day
    accept (if s.site.state.turnTimerRuns then s.catchUp.askTurn .schedule else s)

/-- R139. -/
def execSetClock (payload : List Byte) (s : State) : Host.Outcome State Fault Refusal :=
  .next (s.take .setClock payload fun s => s.setClock (longAt payload 0) (byteAt payload 4))

end Sys2Proof.Machine
end

