-- ==== Sys2Proof/Machine/Flow.lean ====
section
/-! DEFINITION. The Flow Monitor (R117 to R137): the poll cycle, the processing of its samples, and the commands
SAMPLE_TIMER_EXPIRY, POLL_SENT, COUNTER_REPLY, REPLY_TIMEOUT and FLOW_READ. Integer division by a positive number rounds
toward minus infinity, as R124 asks. -/

namespace Sys2Proof.Machine

/-! ### One good sample of a TRACKING channel (R124 to R130) -/

/-- A value moves toward a target by the floor of their difference over 2 to the shift (R124, R128, R130). -/
def moveToward (value target : Int) (shift : Nat) : Int := value + (target - value) / (2 : Int) ^ shift

/-- R125: the candidate level. -/
def candidateLevel (c : ChannelConfig) (f d : Int) : Level :=
  if 16 * (c.crowded : Int) ≤ d || 16 * (c.ceiling : Int) ≤ f then .crowded
  else if 16 * (c.busy : Int) ≤ d then .busy
  else .clear

/-- R126: the hold condition of CROWDED. -/
def crowdedHolds (c : ChannelConfig) (f d : Int) : Bool :=
  16 * ((c.crowded : Int) - c.hysteresis) ≤ d || 16 * ((c.ceiling : Int) - c.hysteresis) ≤ f

/-- R126: the hold condition of BUSY. -/
def busyHolds (c : ChannelConfig) (d : Int) : Bool := 16 * ((c.busy : Int) - c.hysteresis) ≤ d

/-- R126: the level after step 4; it differs from the level before exactly on a drop. -/
def levelHeld (c : ChannelConfig) (f d : Int) : Level → Level
  | .crowded => if crowdedHolds c f d then .crowded else if busyHolds c d then .busy else .clear
  | .busy => if busyHolds c d then .busy else .clear
  | level => level

/-- The order CLEAR, BUSY, CROWDED (R117); UNKNOWN and OFF stand outside it. -/
def Level.above : Level → Level → Bool
  | .crowded, .busy => true
  | .crowded, .clear => true
  | .busy, .clear => true
  | _, _ => false

/-- R126, R127: the level and the debounce count after steps 4 and 5. -/
def levelAndDebounce (c : ChannelConfig) (f d : Int) (level : Level) (debounce : Nat) : Level × Nat :=
  let held := levelHeld c f d level
  let candidate := candidateLevel c f d
  if held ≠ level then (held, 0)
  else if candidate.above level then
    if debounce + 1 = c.debounce then (candidate, 0) else (level, debounce + 1)
  else (level, 0)

/-- The range of F, L and Act (R117, R129). -/
def clampFlow (z : Int) : Int := max 0 (min z Config.flowMost)

/-- R128, R129: L and its CLEAR-branch change after step 6. -/
def averageAfter (c : ChannelConfig) (level : Level) (f average referenceChange : Int) : Int × Int :=
  match level with
  | .clear =>
    let new := moveToward average f c.averageShift
    (new, new - average)
  | _ =>
    if c.role = .follower then (clampFlow (average + referenceChange * (c.weight : Int) / 4096), 0)
    else (average, 0)

/-- R130: the plateau count before the test for a reseed. -/
def plateauAfter (c : ChannelConfig) (level : Level) (f activation : Int) (plateau : Nat) : Nat :=
  match level with
  | .clear => 0
  | _ =>
    if c.plateauSamples = 0 then 0
    else if (f - activation).natAbs < 16 * c.settleBand then plateau + 1
    else 0

/-- R130: the level a reseed sets. -/
def reseedLevel (c : ChannelConfig) (f : Int) : Level := if 16 * (c.ceiling : Int) ≤ f then .crowded else .clear

/-- What a channel's processing leaves: the channel, and whether it reseeded. -/
structure Processed where
  channel : Channel
  reseeded : Bool
  deriving DecidableEq, Repr

/-- R124 to R130: the eight steps on a good sample of a TRACKING channel. -/
def processTracking (c : ChannelConfig) (ch : Channel) (count : Nat) (referenceChange : Int) : Processed :=
  let f := moveToward ch.filter (16 * (count : Int)) c.filterShift
  let d := f - ch.average
  let (level, debounce) := levelAndDebounce c f d ch.level ch.debounce
  let (average, change) := averageAfter c level f ch.average referenceChange
  let activation := moveToward ch.activation (16 * (count : Int)) c.activationShift
  let plateau := plateauAfter c level f activation ch.plateau
  if level ≠ .clear && c.plateauSamples ≠ 0 && plateau = c.plateauSamples then
    { channel := { state := .tracking, level := reseedLevel c f, filter := f, average := f, activation := activation,
                   debounce := 0, plateau := 0, missed := 0, change := change, lastCount := some count }
      reseeded := true }
  else
    { channel := { state := .tracking, level := level, filter := f, average := average, activation := activation,
                   debounce := debounce, plateau := plateau, missed := 0, change := change, lastCount := some count }
      reseeded := false }

/-! ### Seeding, staleness and missed samples (R131 to R133) -/

/-- R131: the first good sample of a SEEDING channel. -/
def processSeeding (count : Nat) : Channel :=
  { state := .tracking, level := .clear, filter := 16 * (count : Int), average := 16 * (count : Int),
    activation := 16 * (count : Int), debounce := 0, plateau := 0, missed := 0, change := 0, lastCount := some count }

/-- R133: the first good sample of a STALE channel; L is kept. -/
def processStale (ch : Channel) (count : Nat) : Channel :=
  { processSeeding count with average := ch.average }

/-- R132: a missed sample below the stale limit, or at it already. -/
def Channel.missedAgain (c : ChannelConfig) (ch : Channel) : Channel :=
  { ch with missed := if ch.missed = c.staleLimit then ch.missed else ch.missed + 1, change := 0 }

/-- R132: this missed sample makes the count reach the stale limit. -/
def Channel.reachesLimit (c : ChannelConfig) (ch : Channel) : Bool :=
  (ch.state = .tracking || ch.state = .seeding) && ch.missed ≠ c.staleLimit && ch.missed + 1 = c.staleLimit

/-- R132: a missed sample. -/
def processMissed (c : ChannelConfig) (ch : Channel) : Channel :=
  if ch.reachesLimit c then
    { ch.missedAgain c with
      level := .unknown
      state := if ch.state = .tracking then .stale else ch.state }
  else ch.missedAgain c

/-- R122: a channel's sample is processed by the rule for its state; an OFF channel is not polled. -/
def processSample (c : ChannelConfig) (ch : Channel) (sample : Option Nat) (referenceChange : Int) : Processed :=
  match sample with
  | none => { channel := processMissed c ch, reseeded := false }
  | some count =>
    match ch.state with
    | .tracking => processTracking c ch count referenceChange
    | .seeding => { channel := processSeeding count, reseeded := false }
    | .stale => { channel := processStale ch count, reseeded := false }
    | .off => { channel := ch, reseeded := false }

/-! ### Notices of a channel's processing (R134) -/

/-- R134: FLOW STALE where the level becomes UNKNOWN at the stale limit, FLOW RESEED where the channel reseeds, FLOW LEVEL
where the level at the end differs from that at the start and is not UNKNOWN, in this order. -/
def flowNotices (i : Nat) (before : Channel) (after : Processed) : List Notice :=
  let ch := after.channel
  (if ch.level = .unknown && before.level ≠ .unknown then [.flowStale i before.level ch.missed] else [])
    ++ (if after.reseeded then [.flowReseed i ch.average ch.level] else [])
    ++ (if ch.level ≠ before.level && ch.level ≠ .unknown then [.flowLevel i before.level ch.level] else [])

/-- One channel's sample of a cycle is processed and its notices offered (R122, R129, R134). -/
def State.processChannel (s : State) (sample : Nat × Option Nat) : State :=
  let i := sample.1
  let c := s.channelConfig i
  let after := processSample c (s.channel i) sample.2 (s.channel c.reference).change
  (flowNotices i (s.channel i) after).foldl State.offer (s.setChannel i after.channel)

/-- R122: the samples of a cycle, first those of REFERENCE channels, then the others, each in the order polled. -/
def State.processCycle (s : State) (samples : List (Nat × Option Nat)) : State :=
  let isReference (sample : Nat × Option Nat) : Bool := (s.channelConfig sample.1).role = .reference
  ((samples.filter isReference) ++ (samples.filter fun x => !isReference x)).foldl State.processChannel s

/-! ### The poll cycle (R119 to R121) -/

/-- R120: the channels a cycle polls, in ascending channel number. -/
def State.polledChannels (s : State) : List Nat :=
  (List.range Config.channels).filter fun c => (s.channel c).state ≠ .off

def State.setCycle (s : State) (cycle : Option PollCycle) : State := { s with flow := { s.flow with cycle := cycle } }

/-- R119, R136: the sample timer starts with the present sample interval. -/
def State.startSampleTimer (s : State) : State :=
  { s with flow := { s.flow with timer := some s.link.parameters.sampleInterval } }

/-- R119, R120: the running timer starts again and a poll cycle begins with the first polled channel; a cycle with no
channel to poll ends at once. Without effect while the timer is stopped; a cycle ends before the next expiry (R120), so an
expiry during one finds nothing to begin. -/
def State.sampleTimerExpiry (s : State) : State :=
  match s.flow.timer with
  | none => s
  | some _ =>
    let s := s.startSampleTimer
    match s.flow.cycle, s.polledChannels with
    | none, first :: rest => s.setCycle (some { current := first, phase := .sending, rest := rest, samples := [] })
    | _, _ => s

/-- R119. -/
def execSampleTimerExpiry (s : State) : Host.Outcome State Fault Refusal :=
  .next (s.event State.sampleTimerExpiry)

/-- R120: the poll frame has been sent; the 8 ms window opens. -/
def State.pollSent (s : State) : State :=
  match s.flow.cycle with
  | some cycle => if cycle.phase = .sending then s.setCycle (some { cycle with phase := .listening }) else s
  | none => s

/-- R120. -/
def execPollSent (s : State) : Host.Outcome State Fault Refusal :=
  .next (s.event State.pollSent)

/-- R120, R122: the current channel's sample is judged: the next channel is polled, or the cycle ends and its samples are
processed. Without effect outside a reply window. -/
def State.judgeSample (s : State) (sample : PollCycle → Option Nat) : State :=
  match s.flow.cycle with
  | none => s
  | some cycle =>
    if cycle.phase = .listening then
      let samples := cycle.samples ++ [(cycle.current, sample cycle)]
      match cycle.rest with
      | next :: rest => s.setCycle (some { current := next, phase := .sending, rest := rest, samples := samples })
      | [] => (s.setCycle none).processCycle samples
    else s

/-- R121, R179: the sample of a complete reply to the poll of channel c: its count when the reply is good. -/
def replySample (c : Nat) (b0 b1 b2 b3 b4 : Byte) : Option Nat :=
  let count := ofLe [b2, b3]
  if b0 = 0x5B && b0 + b1 + b2 + b3 + b4 = 0 && b1.toNat = c && count ≤ 1023 then some count else none

/-- R121. -/
def execCounterReply (b0 b1 b2 b3 b4 : Byte) (s : State) : Host.Outcome State Fault Refusal :=
  .next (s.event fun s => s.judgeSample fun cycle => replySample cycle.current b0 b1 b2 b3 b4)

/-- R120. -/
def execReplyTimeout (s : State) : Host.Outcome State Fault Refusal :=
  .next (s.event fun s => s.judgeSample fun _ => none)

/-! ### FLOW_READ (R135) -/

/-- R135: the bytes of a FLOW READ report (R179). -/
def State.flowReport (s : State) (c : Nat) : List Byte :=
  let ch := s.channel c
  le8 ch.state.code ++ le8 ch.level.code ++ le8 (s.published c).code ++ leInt16 ch.filter ++ leInt16 ch.average
    ++ leInt16 ch.activation ++ le8 ch.debounce ++ le8 ch.plateau ++ le8 ch.missed ++ leInt16 ch.change
    ++ opt16 ch.lastCount

/-- R135: FLOW READ reports and changes nothing. -/
def State.flowRead (s : State) (c : Nat) : Answer :=
  if Config.channels ≤ c then refuse s .badIndex
  else { code := .ok, data := s.flowReport c, state := s }

/-- R135. -/
def execFlowRead (payload : List Byte) (s : State) : Host.Outcome State Fault Refusal :=
  .next (s.take .flowRead payload fun s => s.flowRead (byteAt payload 0))

/-! ### Entering VALID (R136) -/

/-- R136: a channel when the site enters VALID. -/
def seededChannel (c : ChannelConfig) : Channel :=
  if c.enabled then { Channel.cleared with state := .seeding, level := .clear } else Channel.cleared

/-- R136: every channel is seeded or OFF, and the sample timer starts. -/
def State.seedChannels (s : State) : State :=
  ({ s with flow := { s.flow with
      channels := Table.tabulate .cleared Config.channels fun c => seededChannel (s.channelConfig c)
      cycle := none } }).startSampleTimer

end Sys2Proof.Machine
end

