-- ==== Sys2Proof/Machine/Validation.lean ====
section
/-! DEFINITION. Validation of the site tables (R20, R123). Each check reads the records and counts as they stand. -/

namespace Sys2Proof.Machine

/-- The slice of a node holds an index of the adjacency table (R2). -/
def Node.slice (n : Node) (j : Nat) : Bool := n.adjacencyStart ≤ j && j < n.adjacencyStart + n.adjacencyCount

def SiteStore.nodeAt (s : SiteStore) (i : Nat) : Node := Table.get .cleared s.nodes i
def SiteStore.edgeAt (s : SiteStore) (i : Nat) : Edge := Table.get .cleared s.edges i
def SiteStore.adjacentAt (s : SiteStore) (i : Nat) : Nat := Table.get 0 s.adjacency i
def SiteStore.groupAt (s : SiteStore) (i : Nat) : Group := Table.get .cleared s.groups i
def SiteStore.memberAt (s : SiteStore) (i : Nat) : Member := Table.get .cleared s.members i
def SiteStore.channelAt (s : SiteStore) (i : Nat) : ChannelConfig := Table.get .cleared s.channels i

/-- N1. -/
def checkN1 (s : SiteStore) (i : Nat) : Bool :=
  (s.nodeAt i).adjacencyStart + (s.nodeAt i).adjacencyCount ≤ s.header.adjacencyCount

/-- E1. -/
def checkE1 (s : SiteStore) (i : Nat) : Bool :=
  let e := s.edgeAt i
  e.a < s.header.nodeCount && e.b < s.header.nodeCount && e.a ≠ e.b

/-- The adjacency entries below the adjacency count that name an edge. -/
def SiteStore.namings (s : SiteStore) (i : Nat) : List Nat :=
  (List.range s.header.adjacencyCount).filter fun j => s.adjacentAt j = i

/-- E2: exactly two entries name the edge, one in the slice of each endpoint. -/
def checkE2 (s : SiteStore) (i : Nat) : Bool :=
  let a := s.nodeAt (s.edgeAt i).a
  let b := s.nodeAt (s.edgeAt i).b
  match s.namings i with
  | [j, k] => (a.slice j && b.slice k) || (a.slice k && b.slice j)
  | _ => false

/-- E3: heading V and length 0 for an ELEVATOR edge, a heading 0-7 otherwise. -/
def checkE3 (s : SiteStore) (i : Nat) : Bool :=
  let e := s.edgeAt i
  if e.cls = .elevator then e.heading = none && e.length = 0 else e.heading.isSome

/-- E4: the floors of the endpoints. -/
def checkE4 (s : SiteStore) (i : Nat) : Bool :=
  let e := s.edgeAt i
  let sameFloor : Bool := (s.nodeAt e.a).floor = (s.nodeAt e.b).floor
  match e.cls with
  | .stairs => !sameFloor
  | .escalator => !sameFloor
  | .elevator => !sameFloor
  | .walk => sameFloor
  | .door => sameFloor
  | .travelator => sameFloor

/-- E5: the direction mode of moving edges and of the others. -/
def checkE5 (s : SiteStore) (i : Nat) : Bool :=
  let e := s.edgeAt i
  if e.cls = .escalator || e.cls = .travelator then e.direction ≠ .both else e.direction = .both

/-- A1. -/
def checkA1 (s : SiteStore) (j : Nat) : Bool := s.adjacentAt j < s.header.edgeCount

/-- The nodes of the site whose slice holds an adjacency entry. -/
def SiteStore.slicesWith (s : SiteStore) (j : Nat) : List Nat :=
  (List.range s.header.nodeCount).filter fun n => (s.nodeAt n).slice j

/-- A2: the entry lies in the slice of exactly one node, which is an endpoint of the named edge. -/
def checkA2 (s : SiteStore) (j : Nat) : Bool :=
  let e := s.edgeAt (s.adjacentAt j)
  match s.slicesWith j with
  | [n] => n = e.a || n = e.b
  | _ => false

/-- G1. -/
def checkG1 (s : SiteStore) (i : Nat) : Bool :=
  (s.groupAt i).memberStart + (s.groupAt i).memberCount ≤ s.header.memberCount

/-- G2: no node appears in two members of the slice. -/
def checkG2 (s : SiteStore) (i : Nat) : Bool :=
  let g := s.groupAt i
  ((List.range g.memberCount).map fun k => (s.memberAt (g.memberStart + k)).node).Nodup

/-- G3. -/
def checkG3 (s : SiteStore) : Bool := s.header.exitGroup < s.header.groupCount

/-- M1. -/
def checkM1 (s : SiteStore) (i : Nat) : Bool := (s.memberAt i).node < s.header.nodeCount

/-- D1. -/
def checkD1 (s : SiteStore) (i : Nat) : Bool :=
  let d := Table.get DirectoryEntry.cleared s.directory i
  match d.kind with
  | .direct => d.ref < s.header.nodeCount
  | .group => d.ref < s.header.groupCount
  | .unused => true

/-- P1, checked on profile 7 only. -/
def checkP1 (s : SiteStore) (i : Nat) : Bool := i ≠ 7 || (Table.get Profile.cleared s.profiles i).stairs

/-- S1. -/
def checkS1 (s : SiteStore) (i : Nat) : Bool :=
  let r := Table.get Screen.cleared s.screens i
  !r.enabled || r.node < s.header.nodeCount

/-- F1 (R123): a follower's reference channel is enabled. -/
def checkF1 (s : SiteStore) (i : Nat) : Bool :=
  let c := s.channelAt i
  !c.enabled || c.role ≠ .follower || (s.channelAt c.reference).enabled

/-- F2 (R123): a follower's reference channel has role REFERENCE. -/
def checkF2 (s : SiteStore) (i : Nat) : Bool :=
  let c := s.channelAt i
  !c.enabled || c.role ≠ .follower || (s.channelAt c.reference).role = .reference

/-- F3 (R123): the hysteresis is below the ceiling. -/
def checkF3 (s : SiteStore) (i : Nat) : Bool :=
  let c := s.channelAt i
  !c.enabled || c.hysteresis < c.ceiling

/-- F4 (R123): the plateau samples setting is 0, or the settle band is above 0. -/
def checkF4 (s : SiteStore) (i : Nat) : Bool :=
  let c := s.channelAt i
  !c.enabled || c.plateauSamples = 0 || 0 < c.settleBand

/-- C1: an EDGE or MOTION target is below the edge count. -/
def checkC1 (s : SiteStore) (i : Nat) : Bool :=
  let t := (Table.get ScheduleEntry.cleared s.schedule i).target
  t.kind = .gate || t.index < s.header.edgeCount

/-- C2: a MOTION target is an ESCALATOR or TRAVELATOR edge. -/
def checkC2 (s : SiteStore) (i : Nat) : Bool :=
  let t := (Table.get ScheduleEntry.cleared s.schedule i).target
  t.kind ≠ .motion || (s.edgeAt t.index).cls = .escalator || (s.edgeAt t.index).cls = .travelator

/-- R20: the checks of a table's records, in their order. -/
def TableId.checks : TableId → List (CheckCode × (SiteStore → Nat → Bool))
  | .header => []
  | .nodes => [(.N1, checkN1)]
  | .edges => [(.E1, checkE1), (.E2, checkE2), (.E3, checkE3), (.E4, checkE4), (.E5, checkE5)]
  | .adjacency => [(.A1, checkA1), (.A2, checkA2)]
  | .groups => [(.G1, checkG1), (.G2, checkG2)]
  | .members => [(.M1, checkM1)]
  | .directory => [(.D1, checkD1)]
  | .gates => []
  | .profiles => [(.P1, checkP1)]
  | .screens => [(.S1, checkS1)]
  | .channels => [(.F1, checkF1), (.F2, checkF2), (.F3, checkF3), (.F4, checkF4)]
  | .schedule => [(.C1, checkC1), (.C2, checkC2)]

/-- The first failing check of one record (R20). -/
def SiteStore.recordFailure (s : SiteStore) (t : TableId) (i : Nat) : Option Failure :=
  (t.checks.find? fun check => !check.2 s i).map fun check => { table := t, index := i, code := check.1 }

/-- The first failure of a table's records, G3 after the group records (R20). -/
def SiteStore.tableFailure (s : SiteStore) (t : TableId) : Option Failure :=
  match (List.range (s.header.recordsOf t)).findSome? (s.recordFailure t) with
  | some failure => some failure
  | none =>
    if t = .groups && !checkG3 s then some { table := .groups, index := s.header.exitGroup, code := .G3 } else none

/-- R20: the first failure of the tables in validation order, none when every check passes. -/
def SiteStore.firstFailure (s : SiteStore) : Option Failure := TableId.imageOrder.findSome? s.tableFailure

end Sys2Proof.Machine
end

