-- ==== Sys2Proof/Machine/Site.lean ====
section
/-! DEFINITION. The Site Store's states (R13 to R22): leaving and entering VALID, the start of a load (R159), and the
commands SITE_OPEN, SITE_CLOSE, TABLE_WRITE, TABLE_READ, SITE_LOAD and DRAIN_END. -/

namespace Sys2Proof.Machine

/-! ### Entering VALID (R22) -/

/-- R102: the live tables at the site defaults, the pending list empty and the turn state IDLE. An edge at or above the edge
count holds no motion mode afterwards, whatever its record says and whatever it held: a DESIGN CHOICE, since R102 gives
motion modes below the edge count only and is silent above it (notes/assumptions/29.md). -/
def State.liveDefaults (s : State) : State :=
  let edges := s.site.header.edgeCount
  let moving (e : Edge) : Bool := e.cls = .escalator || e.cls = .travelator
  { s with conditions := { s.conditions with
      closures := Table.tabulate .opened edges fun i => (s.edge i).defaultClosure
      motions := Table.tabulate none edges fun i => if moving (s.edge i) then (s.edge i).direction.motion else none
      gates := Table.tabulate .opened Config.gates s.gateDefault
      levels := Table.tabulate .off Config.channels fun c => if (s.channelConfig c).enabled then .clear else .off
      edits := []
      turn := .idle } }

/-- R146: the LATE list is emptied, and with the clock SET a catch-up is made. -/
def State.scheduleOnEntry (s : State) : State :=
  let s := s.setLate []
  if s.schedule.clockSet then s.catchUp else s

/-- R108: the turn timer starts with the present turn period. -/
def State.startTurnTimer (s : State) : State :=
  { s with conditions := { s.conditions with timer := some s.link.parameters.turnPeriod } }

/-- R113: the immediate turn; no lane is SEARCHING outside VALID, so it applies at once, and the turn timer starts. -/
def State.immediateTurn (s : State) : State := (s.applyTurn .site).startTurnTimer

/-- R13, R22: validation has succeeded: the generation is incremented, the state becomes VALID with its notice, and the
blocks start again from the tables in the sequence of R22. -/
def State.enterValid (s : State) (cause : SiteCause) : State :=
  let s := { s with site := { s.site with generation := s.site.generation + 1 } }
  let s := s.moveSiteWithNotice .valid cause
  s.liveDefaults.seedChannels.scheduleOnEntry.immediateTurn

/-! ### Loads (R159) and drains (R14, R15, R21) -/

/-- R159: a load starts: the unit takes the address, sets the running check to 0 and enters READY_WAIT. -/
def State.startLoad (s : State) (address : Nat) : State :=
  { s with transfer :=
      { TransferUnit.cleared with
        state := .readyWait
        operation := some .load
        address := some address
        sent := [.readStatus]
        last := s.transfer.last } }

/-- R15: the pending open or load of a drain. -/
def State.setDrain (s : State) (drain : Option Drain) : State := { s with site := { s.site with drain := drain } }

/-- What an accepted open or load does once no lane is SEARCHING: EDITING, or LOADING with the load started. -/
def State.proceed (s : State) (work : Drain) (cause : SiteCause) : State :=
  match work with
  | .openSession => s.moveSiteWithNotice .editing cause
  | .load address => (s.moveSiteWithNotice .loading cause).startLoad address

/-- R14, R21: an accepted open or load taken in VALID: the queue is dropped, and the site drains or proceeds at once. -/
def State.leaveValid (s : State) (work : Drain) (cause : SiteCause) : State :=
  let s := s.dropQueue
  if s.anySearching then (s.setDrain (some work)).moveSiteWithNotice .draining cause
  else s.proceed work cause

/-- R14: SITE OPEN. -/
def State.siteOpen (s : State) : Answer :=
  if s.transferRuns then refuse s .transferBusy
  else if s.egress.mode = .egress then refuse s .egressActive
  else match s.site.state with
    | .empty => accept (s.proceed .openSession .openSession)
    | .invalid => accept (s.proceed .openSession .openSession)
    | .editing => accept s
    | .valid => accept (s.leaveValid .openSession .openSession)
    | .draining => refuse s .wrongState
    | .loading => refuse s .wrongState

/-- R14. -/
def execSiteOpen (payload : List Byte) (s : State) : Host.Outcome State Fault Refusal :=
  .next (s.take .siteOpen payload State.siteOpen)

/-- R159, R14: SITE LOAD. -/
def State.siteLoad (s : State) (address : Nat) : Answer :=
  if Config.flashBytes < address + Config.headerBytes then refuse s .tooLarge
  else if s.transferRuns then refuse s .transferBusy
  else if s.egress.mode = .egress then refuse s .egressActive
  else match s.site.state with
    | .empty => accept (s.proceed (.load address) .load)
    | .invalid => accept (s.proceed (.load address) .load)
    | .editing => accept (s.proceed (.load address) .load)
    | .valid => accept (s.leaveValid (.load address) .load)
    | .draining => refuse s .wrongState
    | .loading => refuse s .wrongState

/-- R159. -/
def execSiteLoad (payload : List Byte) (s : State) : Host.Outcome State Fault Refusal :=
  .next (s.take .siteLoad payload fun s => s.siteLoad (longAt payload 0))

/-- R15: the drain ends; without effect while a lane is SEARCHING or the site is not DRAINING. -/
def State.drainEnd (s : State) : State :=
  if s.site.state = .draining && !s.anySearching then
    match s.site.drain with
    | some work => (s.setDrain none).proceed work .drain
    | none => s
  else s

/-- R15. -/
def execDrainEnd (s : State) : Host.Outcome State Fault Refusal :=
  .next (s.event State.drainEnd)

/-! ### Closing (R19) -/

/-- R19, R179: the reply data of SITE CLOSE: outcome, generation, table, index, check code. -/
def closeData (generation : Option Word16) (failure : Option Failure) : List Byte :=
  le8 (if failure.isNone then 0 else 1) ++ opt16 (generation.map BitVec.toNat)
    ++ opt8 (failure.map fun f => f.table.code) ++ opt16 (failure.map Failure.index)
    ++ (match failure with
        | some f => f.code.bytes
        | none => [0, 0])

/-- R19: SITE CLOSE. -/
def State.siteClose (s : State) : Answer :=
  if s.transferRuns then refuse s .transferBusy
  else if s.site.state = .editing || s.site.state = .invalid then
    match s.site.firstFailure with
    | none =>
      let s := s.enterValid .close
      { code := .ok, data := closeData (some s.site.generation) none, state := s }
    | some failure =>
      { code := .ok, data := closeData none (some failure), state := s.moveSiteWithNotice .invalid .close }
  else refuse s .wrongState

/-- R19. -/
def execSiteClose (payload : List Byte) (s : State) : Host.Outcome State Fault Refusal :=
  .next (s.take .siteClose payload State.siteClose)

/-! ### Writing and reading the tables (R17, R18) -/

/-- R17 step 3: the first index, or the last, lies at or above the table's record number. -/
def outsideTable (t : TableId) (first count : Nat) : Bool :=
  t.capacity ≤ first || t.capacity ≤ first + (count - 1)

/-- The records that consecutive records' bytes stand for, none where one of them fails its checks (R17 step 4). -/
def recordsOfBytes (t : TableId) (count : Nat) (bytes : List Byte) : Option (List Record) :=
  (chunks t.recordBytes count bytes).mapM (Record.ofBytes t)

/-- R17: TABLE WRITE to a table by its number, a first index, and the bytes of the records. -/
def State.tableWrite (s : State) (table first : Nat) (bytes : List Byte) : Answer :=
  if !(s.site.state = .editing || s.site.state = .invalid) then refuse s .wrongState
  else match TableId.ofCode table with
    | none => refuse s .badTarget
    | some t =>
      let count := bytes.length / t.recordBytes
      if outsideTable t first count then refuse s .badIndex
      else match recordsOfBytes t count bytes with
        | none => refuse s .badValue
        | some records => accept { s with site := s.site.setRecords first records }

/-- R17. -/
def execTableWrite (payload : List Byte) (s : State) : Host.Outcome State Fault Refusal :=
  .next (s.take .tableWrite payload fun s =>
    s.tableWrite (byteAt payload 0) (wordAt payload 1) (payload.drop 3))

/-- R18: TABLE READ. -/
def State.tableRead (s : State) (table first count : Nat) : Answer :=
  if s.site.state = .loading then refuse s .wrongState
  else match TableId.ofCode table with
    | none => refuse s .badTarget
    | some t =>
      if outsideTable t first count then refuse s .badIndex
      else if count = 0 || Config.payloadBytes < 1 + count * t.recordBytes then refuse s .badValue
      else { code := .ok, data := s.site.recordsBytes t first count, state := s }

/-- R18. -/
def execTableRead (payload : List Byte) (s : State) : Host.Outcome State Fault Refusal :=
  .next (s.take .tableRead payload fun s => s.tableRead (byteAt payload 0) (wordAt payload 1) (wordAt payload 3))

end Sys2Proof.Machine
end

