-- ==== Sys2Proof/Machine/Egress.lean ====
section
/-! DEFINITION. Egress Control (R149 to R157): the alarm filter, entry into EGRESS and the return to NORMAL, and the
commands EGRESS_ENTER, EGRESS_RESUME, ALARM_PIN_CHANGE, ALARM_ASSERTED and ALARM_CLEAR. -/

namespace Sys2Proof.Machine

def State.setEgress (s : State) (e : EgressControl) : State := { s with egress := e }

/-- R156: the EGRESS notice of an event carries the whole present state of Egress Control. -/
def State.offerEgress (s : State) (event : EgressEvent) : State :=
  s.offer (.egress event s.egress.mode s.egress.cause s.egress.asserted)

/-- R15, R16, R152 step 2: entry into EGRESS abandons a drain: VALID is restored with the SITE STATE notice of cause
EGRESS, and the sample timer starts again (R119). -/
def State.abandonDrain (s : State) : State :=
  if s.site.state = .draining then
    ((s.setDrain none).moveSite .valid).startSampleTimer.offerSiteState .egress
  else s

/-- R152: entry into EGRESS. -/
def State.enterEgress (s : State) (cause : EntryCause) : State :=
  let s := s.setEgress { s.egress with mode := .egress, cause := some cause }
  ((s.abandonDrain.markQueue true).handBack).offerEgress .entered

/-- R155: the return to NORMAL. -/
def State.resume (s : State) : State :=
  let s := s.setEgress { s.egress with mode := .normal, cause := none }
  ((s.markQueue false).handBack).offerEgress .resumed

/-- R151. -/
def State.egressEnter (s : State) : Answer :=
  match s.egress.mode with
  | .egress => refuse s .already
  | .normal => accept (s.enterEgress .drill)

/-- R151. -/
def execEgressEnter (payload : List Byte) (s : State) : Host.Outcome State Fault Refusal :=
  .next (s.take .egressEnter payload State.egressEnter)

/-- R155. -/
def State.egressResume (s : State) : Answer :=
  match s.egress.mode with
  | .normal => refuse s .already
  | .egress => if s.egress.asserted then refuse s .alarmActive else accept s.resume

/-- R155. -/
def execEgressResume (payload : List Byte) (s : State) : Host.Outcome State Fault Refusal :=
  .next (s.take .egressResume payload State.egressResume)

/-- R149: the pin leaves the filtered level and the measure starts, or it returns and the measure is discarded. -/
def State.alarmPinChange (s : State) : State := s.setEgress { s.egress with measuring := !s.egress.measuring }

/-- R149. -/
def execAlarmPinChange (s : State) : Host.Outcome State Fault Refusal :=
  .next (s.event State.alarmPinChange)

/-- R149: the filtered level takes the pin's level and the measure is emptied. -/
def State.takeLevel (s : State) (asserted : Bool) : State :=
  s.setEgress { s.egress with asserted := asserted, measuring := false }

/-- R149, R152, R153: the filtered level becomes ASSERTED, which enters EGRESS, or offers ALARM ASSERTED in EGRESS.
Without effect unless the pin stands high against a CLEAR level. -/
def State.alarmAsserted (s : State) : State :=
  if s.egress.measuring && !s.egress.asserted then
    let s := s.takeLevel true
    match s.egress.mode with
    | .normal => s.enterEgress .alarm
    | .egress => s.offerEgress .alarmAsserted
  else s

/-- R149. -/
def execAlarmAsserted (s : State) : Host.Outcome State Fault Refusal :=
  .next (s.event State.alarmAsserted)

/-- R149, R153: the filtered level becomes CLEAR, and in EGRESS an ALARM CLEAR notice is offered. Without effect unless the
pin stands low against an ASSERTED level. -/
def State.alarmClear (s : State) : State :=
  if s.egress.measuring && s.egress.asserted then
    let s := s.takeLevel false
    match s.egress.mode with
    | .normal => s
    | .egress => s.offerEgress .alarmClear
  else s

/-- R153. -/
def execAlarmClear (s : State) : Host.Outcome State Fault Refusal :=
  .next (s.event State.alarmClear)

end Sys2Proof.Machine
end

