-- ==== Sys2Proof/Machine/Flags.lean ====
section
/-! DEFINITION. The levels of the part's output pins, each a function of the state: ALERT (R177), CLDE (R120), FCS (R158),
TXD (R170, R178) and the raw ALARM pin that Egress Control's measure stands for (R149). -/

namespace Sys2Proof.Machine

/-- Some channel's published level is CROWDED (R177). -/
def State.anyCrowded (s : State) : Bool :=
  (List.range Config.channels).any fun c => s.published c = .crowded

/-- The condition of an ALERT source (R177); FIXED_LOW and FIXED_HIGH have none. -/
def State.alertCondition (s : State) : AlertSource → Bool
  | .egress => s.egress.mode = .egress
  | .anyCrowded => s.anyCrowded
  | .siteNotValid => s.site.state ≠ .valid
  | .startPending => s.link.startPending
  | .noticeBacklog => Config.backlog ≤ s.link.notices.length
  | .fixedLow => false
  | .fixedHigh => true

/-- The level of the ALERT pin, true for high (R177): low while RESET is asserted, polarity not applied to the fixed
sources. -/
def State.alert (s : State) : Bool :=
  if s.pins.resetAsserted then false
  else match s.link.parameters.alertSource with
    | .fixedLow => false
    | .fixedHigh => true
    | source => match s.link.parameters.alertPolarity with
      | .activeHigh => s.alertCondition source
      | .activeLow => !s.alertCondition source

/-- CLDE is asserted while a poll frame is being sent (R120). -/
def State.clde (s : State) : Bool :=
  s.running && match s.flow.cycle with
    | some cycle => cycle.phase = .sending
    | none => false

/-- The poll frame being sent to the head at address c (R179). -/
def pollFrame (c : Nat) : List Byte := [0x5A, BitVec.ofNat 8 c, checkByte [0x5A, BitVec.ofNat 8 c]]

/-- FCS, true for high: high while the unit is IDLE, low while a command runs (R158). -/
def State.fcs (s : State) : Bool := s.transfer.state = .idle

/-- What the TXD pin carries: its idle level, which is high, or the bytes of a frame (R170, R178). -/
inductive TxdLine where
  | high
  | frame (bytes : List Byte)
  deriving DecidableEq, Repr

/-- The TXD pin: high while the transmitter is idle, as it is while RESET is asserted (R170, R178). -/
def State.txd (s : State) : TxdLine :=
  match s.link.sending with
  | some f => .frame f.bytes
  | none => .high

/-- The raw level of the ALARM pin: the filtered level, or the other one while the measure runs (R149). -/
def State.alarmPin (s : State) : Bool := s.egress.asserted != s.egress.measuring

/-- The bit rate the RATE straps select, in baud (00_scope, Signal Summary). -/
def Pins.baud (p : Pins) : Nat :=
  match p.rate.toNat with
  | 0 => 57600
  | 1 => 115200
  | 2 => 230400
  | _ => 460800

end Sys2Proof.Machine
end

