-- ==== Sys2Proof/Machine/Transfer.lean ====
section
/-! DEFINITION. The Site Transfer Unit (R158 to R167): loads and dumps, and the commands SITE_DUMP, BUSY_CLEAR,
FLASH_TIMEOUT, HEADER_READ and RECORD_READ. -/

namespace Sys2Proof.Machine

/-! ### The end of a transfer (R162, R166) -/

/-- R166, R167: the unit is IDLE, and the operation and outcome of this transfer are the last ones. That IDLE holds no address
and no image length, and the running check until the next transfer, is a DESIGN CHOICE (notes/assumptions/26.md). -/
def TransferUnit.ended (t : TransferUnit) (operation : Operation) (outcome : TransferOutcome) : TransferUnit :=
  { TransferUnit.cleared with check := t.check, last := some (operation, outcome) }

/-- R166: the unit returns to IDLE and offers TRANSFER DONE with what the transfer held. -/
def State.endTransfer (s : State) (t : TransferUnit) (operation : Operation) (outcome : TransferOutcome)
    (generation : Option Word16) : State :=
  (s.setTransfer (t.ended operation outcome)).offer
    (.transferDone operation outcome (t.address.getD 0) t.imageLength generation)

/-- R160, R162: a load ends without validation success: the site becomes INVALID with its notice, then TRANSFER DONE. -/
def State.failLoad (s : State) (outcome : TransferOutcome) : State :=
  (s.moveSiteWithNotice .invalid .load).endTransfer s.transfer .load outcome none

/-- R162: validation of the loaded tables ends the load VALID, with the sequence of R22, or INVALID. -/
def State.validateLoad (s : State) : State :=
  match s.site.firstFailure with
  | some failure => s.failLoad (.invalid failure)
  | none =>
    let t := s.transfer
    let s := s.enterValid .load
    s.endTransfer t .load .valid (some s.site.generation)

/-! ### HEADER_READ (R160) -/

/-- The header record an image header states (R179). -/
def headerOf (bytes : List Byte) : Header :=
  { nodeCount := wordAt bytes 4, edgeCount := wordAt bytes 6, adjacencyCount := wordAt bytes 8,
    groupCount := wordAt bytes 10, memberCount := wordAt bytes 12, directoryCount := wordAt bytes 14,
    scheduleCount := wordAt bytes 16, exitGroup := wordAt bytes 18, fBusy := byteAt bytes 20,
    fCrowded := byteAt bytes 21, fUnknown := byteAt bytes 22 }

/-- R160: the first of H1 to H5 that fails, for an image at this address. -/
def headerFailure (bytes : List Byte) (address : Nat) : Option CheckCode :=
  if !(byteAt bytes 0 = 0x48 && byteAt bytes 1 = 0x50) then some .H1
  else if byteAt bytes 2 ≠ 1 then some .H2
  else if !(headerOf bytes).inRange then some .H3
  else if longAt bytes 24 ≠ (headerOf bytes).imageLength then some .H4
  else if Config.flashBytes < address + longAt bytes 24 then some .H5
  else none

/-- The first record at or after a table of the image order that belongs to the site (R161). -/
def Header.firstRecord (h : Header) : List TableId → Option (TableId × Nat)
  | [] => none
  | t :: rest => if 0 < h.recordsOf t then some (t, 0) else h.firstRecord rest

/-- The tables of the image after a table (R161). -/
def TableId.after (t : TableId) : List TableId := (TableId.imageOrder.dropWhile fun u => u ≠ t).drop 1

/-- The record of the image after a record, none after the last (R161). -/
def Header.nextRecord (h : Header) (t : TableId) (i : Nat) : Option (TableId × Nat) :=
  if i + 1 < h.recordsOf t then some (t, i + 1) else h.firstRecord t.after

/-- R160: every check passes: the header record is written and the unit enters READ_TABLES. -/
def State.acceptHeader (s : State) (bytes : List Byte) : State :=
  let h := headerOf bytes
  let t := s.transfer
  { s with
    site := { s.site with header := h }
    transfer := { t with
      state := .readTables
      imageLength := some (longAt bytes 24)
      expected := BitVec.ofNat 16 (wordAt bytes 28)
      offset := Config.headerBytes
      position := h.firstRecord TableId.imageOrder
      sent := [.read (t.address.getD 0 + Config.headerBytes)] } }

/-- R166: the image length of a BAD_HEADER is known once H4 has passed. -/
def State.noteLength (s : State) (bytes : List Byte) (code : CheckCode) : State :=
  if code = .H5 then s.setTransfer { s.transfer with imageLength := some (longAt bytes 24) } else s

/-- R160: the 32 header bytes are checked. Without effect outside READ_HEADER, and on another number of bytes. -/
def State.headerRead (s : State) (bytes : List Byte) : State :=
  if s.transfer.state = .readHeader && bytes.length = Config.headerBytes then
    match headerFailure bytes (s.transfer.address.getD 0) with
    | some code => (s.noteLength bytes code).failLoad (.badHeader code)
    | none => s.acceptHeader bytes
  else s

/-- R160. -/
def execHeaderRead (bytes : List Byte) (s : State) : Host.Outcome State Fault Refusal :=
  .next (s.event fun s => s.headerRead bytes)

/-! ### RECORD_READ (R161, R162) -/

/-- R161: the last record has been written: the running check is compared, and the tables are validated. -/
def State.finishTables (s : State) : State :=
  let t := s.transfer
  if t.check = t.expected then s.validateLoad else s.failLoad (.checkMismatch t.check t.expected)

/-- R161: a record's bytes enter the running check. -/
def TransferUnit.counted (t : TransferUnit) (bytes : List Byte) : TransferUnit :=
  { t with check := addToCheck t.check bytes, offset := t.offset + bytes.length }

/-- R161: a record of the image is range-checked and written, or the load ends BAD_RECORD. -/
def State.readRecord (s : State) (table : TableId) (i : Nat) (bytes : List Byte) : State :=
  let s := s.setTransfer (s.transfer.counted bytes)
  match Record.ofBytes table bytes with
  | none => s.failLoad (.badRecord table i)
  | some record =>
    let s := { s with site := s.site.setRecord i record }
    match s.site.header.nextRecord table i with
    | some next => s.setTransfer { s.transfer with position := some next }
    | none => (s.setTransfer { s.transfer with position := none, state := .validate }).finishTables

/-- R161. Without effect outside READ_TABLES, and on another number of bytes than the record has. -/
def State.recordRead (s : State) (bytes : List Byte) : State :=
  match s.transfer.state, s.transfer.position with
  | .readTables, some (table, i) => if bytes.length = table.recordBytes then s.readRecord table i bytes else s
  | _, _ => s

/-- R161. -/
def execRecordRead (bytes : List Byte) (s : State) : Host.Outcome State Fault Refusal :=
  .next (s.event fun s => s.recordRead bytes)

/-! ### SITE_DUMP (R163, R164) -/

/-- R164: the bytes of the image after the header. -/
def SiteStore.imageBody (s : SiteStore) : List Byte :=
  TableId.imageOrder.flatMap fun t => s.recordsBytes t 0 (s.header.recordsOf t)

/-- R164, R179: the 32 bytes of the image's header. -/
def SiteStore.imageHeader (s : SiteStore) : List Byte :=
  let h := s.header
  [0x48, 0x50] ++ le8 1 ++ le8 0 ++ le16 h.nodeCount ++ le16 h.edgeCount ++ le16 h.adjacencyCount ++ le16 h.groupCount
    ++ le16 h.memberCount ++ le16 h.directoryCount ++ le16 h.scheduleCount ++ le16 h.exitGroup ++ le8 h.fBusy
    ++ le8 h.fCrowded ++ le8 h.fUnknown ++ le8 0 ++ le32 h.imageLength ++ le16 (addToCheck 0 s.imageBody).toNat ++ le16 0

/-- R164: the image of the present tables. -/
def SiteStore.image (s : SiteStore) : List Byte := s.imageHeader ++ s.imageBody

/-- R164: an accepted dump forms the image and enters READY_WAIT; the running check is the image's. That a dump holds no
table and record index is a DESIGN CHOICE (notes/assumptions/27.md). -/
def State.startDump (s : State) (address : Nat) : State :=
  s.setTransfer
    { TransferUnit.cleared with
      state := .readyWait
      operation := some .dump
      address := some address
      imageLength := some s.site.header.imageLength
      check := addToCheck 0 s.site.imageBody
      sent := [.readStatus]
      last := s.transfer.last }

/-- R163: SITE DUMP, accepted in both modes: a DESIGN CHOICE between R163, to which R154's row for SITE DUMP defers, and the
closing text of R154 (notes/assumptions/25.md). R150 names no reading of the mode at a SITE DUMP. -/
def State.siteDump (s : State) (address : Nat) : Answer :=
  if s.transferRuns then refuse s .transferBusy
  else if s.site.state ≠ .valid then refuse s .wrongState
  else if address % Config.sectorBytes ≠ 0 then refuse s .badValue
  else if Config.flashBytes < address + s.site.header.imageLength then refuse s .tooLarge
  else accept (s.startDump address)

/-- R163. -/
def execSiteDump (payload : List Byte) (s : State) : Host.Outcome State Fault Refusal :=
  .next (s.take .siteDump payload fun s => s.siteDump (longAt payload 0))

/-! ### BUSY_CLEAR (R158, R164) -/

/-- The unit's image length, 0 when it has none. -/
def TransferUnit.length (t : TransferUnit) : Nat := t.imageLength.getD 0

/-- R164: the sector at this byte offset of the image is erased, after write enable and before its status poll. -/
def State.eraseAt (s : State) (offset : Nat) : State :=
  let t := s.transfer
  s.setTransfer { t with
    state := .erase
    offset := offset
    sent := [.writeEnable, .sectorErase (t.address.getD 0 + offset), .readStatus] }

/-- R164: the page at this byte offset of the image is programmed, with as many bytes as the image has left. -/
def State.programAt (s : State) (offset : Nat) : State :=
  let t := s.transfer
  s.setTransfer { t with
    state := .program
    offset := offset
    sent := [.writeEnable, .pageProgram (t.address.getD 0 + offset) ((s.site.image.drop offset).take Config.pageBytes),
             .readStatus] }

/-- R164: the page after the one at this offset, the first page last. -/
def State.programNext (s : State) (offset : Nat) : State :=
  if offset + Config.pageBytes < s.transfer.length then s.programAt (offset + Config.pageBytes) else s.programAt 0

/-- R164: the sector after the one at this offset, and after the last sector the second page. -/
def State.eraseNext (s : State) (offset : Nat) : State :=
  if offset + Config.sectorBytes < s.transfer.length then s.eraseAt (offset + Config.sectorBytes)
  else s.programNext 0

/-- R160: READY_WAIT is over for a load: one read command for the header. -/
def State.readHeader (s : State) : State :=
  s.setTransfer { s.transfer with state := .readHeader, sent := [.read (s.transfer.address.getD 0)] }

/-- R158, R164: a status poll sees the busy bit clear. Without effect in a state that does not poll. -/
def State.busyClear (s : State) : State :=
  match s.transfer.state with
  | .readyWait => match s.transfer.operation with
    | some .load => s.readHeader
    | some .dump => s.eraseAt 0
    | none => s
  | .erase => s.eraseNext s.transfer.offset
  | .program =>
    if s.transfer.offset = 0 then s.endTransfer s.transfer .dump .written none else s.programNext s.transfer.offset
  | .idle => s
  | .readHeader => s
  | .readTables => s
  | .validate => s

/-- R158. -/
def execBusyClear (s : State) : Host.Outcome State Fault Refusal :=
  .next (s.event State.busyClear)

/-! ### FLASH_TIMEOUT (R158) -/

/-- R158, R164: a status poll runs past its allowance and the transfer ends with the stage and address reached. Without
effect in a state that does not poll. -/
def State.flashTimeout (s : State) : State :=
  let t := s.transfer
  let outcome := TransferOutcome.flashTimeout t.state (t.address.getD 0 + t.offset)
  if t.state = .readyWait || t.state = .erase || t.state = .program then
    match t.operation with
    | some .load => s.failLoad outcome
    | some .dump => s.endTransfer t .dump outcome none
    | none => s
  else s

/-- R158. -/
def execFlashTimeout (s : State) : Host.Outcome State Fault Refusal :=
  .next (s.event State.flashTimeout)

end Sys2Proof.Machine
end

