-- ==== Sys2Proof/Machine/Link.lean ====
section
/-! DEFINITION. The Host Link's own commands (R168 to R174): ACK_START, SOFT_RESET, SET_PARAM, GET_PARAM, the frames that
carry no request, SYNC, FRAME_BOUNDARY and START_REPEAT_TIMER_EXPIRY, and the STATUS report. -/

namespace Sys2Proof.Machine

/-! ### Reception (R168, R169) -/

/-- The payload length that a frame's two length bytes, after SYNC, state (R179). -/
def statedLength (frame : List Byte) : Nat := wordAt frame 1

/-- R168: the frame is judged with this byte: its length is complete and exceeds 1024, or this is its check byte. -/
def HostLink.judgesWith (k : HostLink) (b : Byte) : Bool :=
  match k.reception with
  | .length => k.assembled.length = 2 && decide (Config.payloadBytes < statedLength (k.assembled ++ [b]))
  | .check => true
  | .hunt | .kind | .payload => false

/-- R168: the reception state after a byte that joins the frame: two length bytes, the kind byte, and as many payload bytes
as the length states. -/
def receptionOf (frame : List Byte) : Reception :=
  if frame.length < 3 then .length
  else if frame.length = 3 then .kind
  else if frame.length < 4 + statedLength frame then .payload
  else .check

/-- R168: a byte that does not end the frame: in HUNT, SYNC begins a frame and any other byte is discarded; elsewhere the
byte joins the frame. The gap timer measures from the end of each byte of a frame. -/
def HostLink.receive (k : HostLink) (b : Byte) : HostLink :=
  if k.reception = .hunt then
    if b = 0xA5 then { k with reception := .length, assembled := [b], gapTimer := true } else k
  else { k with reception := receptionOf (k.assembled ++ [b]), assembled := k.assembled ++ [b] }

/-- R168: bytes received one after the other, before the byte with which the frame is judged
(DESIGN CHOICE, notes/assumptions/18.md). -/
def HostLink.receiveAll (k : HostLink) : List Byte → HostLink
  | [] => k
  | b :: rest => if k.judgesWith b then k else (k.receive b).receiveAll rest

/-- R168: the receiver takes the byte A5h and the bytes of the frame after it; none while it takes no frame (R172, R177). -/
def State.sync (s : State) (bytes : List Byte) : State :=
  if s.listening then { s with link := s.link.receiveAll (0xA5 :: bytes) } else s

/-- R168. Where no bytes are given, A5h alone. -/
def execSync (s : State) (bytes : List Byte := []) : Host.Outcome State Fault Refusal := .next (s.sync bytes)

/-- R168. Without effect on bytes whose sum is 0. -/
def execBadCheck (bytes : List Byte) (s : State) : Host.Outcome State Fault Refusal :=
  .next (if byteSum bytes = 0 then s else s.answerError .badCheck)

/-- R168. Without effect on a request kind. -/
def execUnknownKind (kind : Byte) (s : State) : Host.Outcome State Fault Refusal :=
  .next (if isRequestKind kind then s else s.answerError .unknownKind)

/-- R168. Without effect on a length that does not exceed 1024. -/
def execBadLength (length : BitVec 16) (s : State) : Host.Outcome State Fault Refusal :=
  .next (if Config.payloadBytes < length.toNat then s.answerError .badLength else s)

/-- R168: the late byte is judged in HUNT: SYNC begins a frame, any other byte is discarded. -/
def State.judgeLate (s : State) (late : Option Byte) : State :=
  if late = some 0xA5 then s.sync [] else s

/-- R168. Without effect in HUNT, where the gap timer does not run. -/
def execFrameTimeout (late : Option Byte) (s : State) : Host.Outcome State Fault Refusal :=
  .next (if s.link.gapTimer then (s.answerError .frameTimeout).judgeLate late else s)

/-- R169: a frame is judged while the reply queue takes none. Without effect while the queue takes frames. -/
def execLinkBusy (s : State) : Host.Outcome State Fault Refusal :=
  .next (if s.link.full then s.judge id else s)

/-! ### The transmitter (R170, R171) -/

/-- R171: when a START notice has been sent and the flag is still set, the repeat timer starts. -/
def HostLink.sent (k : HostLink) : HostLink :=
  match k.sending with
  | some f => if f.kind = 0xC0 && k.startPending then { k with repeatTimer := true } else k
  | none => k

/-- R169: the reply the front entry gives the transmitter, and the queue it leaves. -/
def takeReply : List ReplyEntry → Option (Frame × List ReplyEntry)
  | [] => none
  | .reply f :: rest => some (f, rest)
  | .busyRun n :: rest => some (errorFrame .linkBusy, if n ≤ 1 then rest else .busyRun (n - 1) :: rest)

/-- R170: the choice at a frame boundary: the front reply, or else the head notice, or idle. No notice goes between the
taking of a SOFT RESET and its reply (R172). -/
def HostLink.choose (k : HostLink) : HostLink :=
  match takeReply k.replies with
  | some (f, rest) => { k with replies := rest, sending := some f }
  | none =>
    match k.notices with
    | [] => { k with sending := none }
    | n :: rest =>
      if k.softReset then { k with sending := none }
      else ({ k with notices := rest, sending := some n.frame }).entryLeft

/-- R170. -/
def execFrameBoundary (s : State) : Host.Outcome State Fault Refusal :=
  .next (s.event fun s => { s with link := s.link.sent.choose })

/-! ### START (R171) -/

/-- R171: START notices not yet sent leave the queue, with the consequence of an entry's leaving (R176). -/
def HostLink.removeStart (k : HostLink) : HostLink :=
  if k.notices.any fun n => n.number = 0 then
    ({ k with notices := k.notices.filter fun n => n.number ≠ 0 }).entryLeft
  else k

/-- R171: ACK START. -/
def State.ackStart (s : State) : Answer :=
  if s.link.startPending then
    accept { s with link := HostLink.removeStart { s.link with startPending := false, repeatTimer := false } }
  else refuse s .already

/-- R171. -/
def execAckStart (payload : List Byte) (s : State) : Host.Outcome State Fault Refusal :=
  .next (s.take .ackStart payload State.ackStart)

/-- R171: the repeat timer runs out with the flag set: START is offered again. Without effect on a stopped timer. -/
def State.startRepeat (s : State) : State :=
  if s.link.repeatTimer && s.link.startPending then
    ({ s with link := { s.link with repeatTimer := false } }).offer (.start s.link.resetKind)
  else s

/-- R171. -/
def execStartRepeatTimerExpiry (s : State) : Host.Outcome State Fault Refusal :=
  .next (s.event State.startRepeat)

/-- R172: SOFT RESET is taken and answered OK; the receiver then takes no further frame. -/
def State.softReset (s : State) : Answer := accept { s with link := { s.link with softReset := true } }

/-- R172. -/
def execSoftReset (payload : List Byte) (s : State) : Host.Outcome State Fault Refusal :=
  .next (s.take .softReset payload State.softReset)

/-! ### Parameters (R174) -/

/-- A value clamped to the nearer limit (R174). -/
def clampTo (least most value : Nat) : Nat := max least (min value most)

/-- R174: the value of a parameter as one number, none for an unknown parameter. -/
def Parameters.value (p : Parameters) : Nat → Option Nat
  | 1 => some p.turnPeriod
  | 2 => some p.resultHold
  | 3 => some p.sampleInterval
  | 4 => some p.enables.toNat
  | 5 => some p.alertSource.code
  | 6 => some p.alertPolarity.code
  | _ => none

/-- R174: the parameters with one of them set, none where the value is refused: the times are clamped, the START enable
stays enabled, and a code of no value is refused. -/
def Parameters.withValue (p : Parameters) (number value : Nat) : Option Parameters :=
  match number with
  | 1 => some { p with turnPeriod := clampTo 1 60 value }
  | 2 => some { p with resultHold := clampTo 5 300 value }
  | 3 => some { p with sampleInterval := clampTo 5 60 value }
  | 4 => some { p with enables := BitVec.ofNat 13 value ||| 1 }
  | 5 => (AlertSource.ofCode value).map fun source => { p with alertSource := source }
  | 6 => (AlertPolarity.ofCode value).map fun polarity => { p with alertPolarity := polarity }
  | _ => none

/-- The data of a parameter's reply: the number and the value held (R174, R179). -/
def Parameters.report (p : Parameters) (number : Nat) : List Byte := le8 number ++ le16 ((p.value number).getD 0)

def State.setParameters (s : State) (p : Parameters) : State := { s with link := { s.link with parameters := p } }

/-- R174: SET PARAM. -/
def State.setParam (s : State) (number value : Nat) : Answer :=
  match s.link.parameters.value number with
  | none => refuse s .badTarget
  | some _ => match s.link.parameters.withValue number value with
    | none => refuse s .badValue
    | some p => { code := .ok, data := p.report number, state := s.setParameters p }

/-- R174. -/
def execSetParam (payload : List Byte) (s : State) : Host.Outcome State Fault Refusal :=
  .next (s.take .setParam payload fun s => s.setParam (byteAt payload 0) (wordAt payload 1))

/-- R174: GET PARAM. -/
def State.getParam (s : State) (number : Nat) : Answer :=
  match s.link.parameters.value number with
  | none => refuse s .badTarget
  | some _ => { code := .ok, data := s.link.parameters.report number, state := s }

/-- R174. -/
def execGetParam (payload : List Byte) (s : State) : Host.Outcome State Fault Refusal :=
  .next (s.take .getParam payload fun s => s.getParam (byteAt payload 0))

/-! ### STATUS (R173) -/

/-- R166, R173: the transfer state, operation, byte offset and last outcome: while a transfer runs the offset is present
and the last outcome absent; in IDLE the operation is the last transfer's. -/
def TransferUnit.report (t : TransferUnit) : List Byte :=
  if t.state = .idle then
    le8 t.state.code ++ opt8 (t.last.map fun x => x.1.code) ++ opt32 none ++ opt8 (t.last.map fun x => x.2.code x.1)
  else
    le8 t.state.code ++ opt8 (t.operation.map Operation.code) ++ opt32 (some t.offset) ++ opt8 none

/-- R64, R173: a lane's state and, when it is not FREE, the screen it serves. -/
def Lane.report (lane : Lane) : List Byte := le8 lane.state.code ++ opt8 (lane.request.map Request.screen)

/-- R83, R173: the holders list in its order, FFh filling. -/
def holdersReport (holders : List Nat) : List Byte :=
  (List.range Config.lanes).flatMap fun i => opt8 holders[i]?

/-- R76, R83: the number of OCCUPIED slots. -/
def State.occupiedSlots (s : State) : Nat := ((List.range Config.slots).filter fun n => (s.slot n).isSome).length

/-- R100: the number of screens in the state of this code. -/
def State.screensIn (s : State) (code : Nat) : Nat :=
  ((List.range Config.screens).filter fun i => (s.screen i).code = code).length

/-- R173, R179: the STATUS report. -/
def State.statusReport (s : State) : List Byte :=
  le8 (flagCode s.link.startPending) ++ le8 s.link.resetKind.code
    ++ le8 s.site.state.code ++ le16 s.site.generation.toNat
    ++ s.transfer.report
    ++ le8 s.egress.mode.code ++ opt8 (s.egress.cause.map EntryCause.code) ++ le8 (alarmCode s.egress.asserted)
    ++ le16 s.conditions.epoch.toNat ++ le8 s.conditions.turn.code ++ le8 s.conditions.edits.length
    ++ le8 (clockCode s.schedule.clockSet) ++ le32 s.schedule.second ++ le8 s.schedule.day
    ++ le8 s.schedule.late.length
    ++ (List.range Config.lanes).flatMap (fun l => (s.lane l).report)
    ++ le8 s.occupiedSlots ++ holdersReport s.store.holders
    ++ le8 s.dispatcher.queue.length ++ (List.range 4).flatMap (fun code => le8 (s.screensIn code))
    ++ le8 s.link.notices.length ++ le8 (flagCode s.link.overrunMark)

/-- R173: STATUS reports the part as it stands when the request is taken, and changes nothing. -/
def State.status (s : State) : Answer := { code := .ok, data := s.statusReport, state := s }

/-- R173. -/
def execStatus (payload : List Byte) (s : State) : Host.Outcome State Fault Refusal :=
  .next (s.take .status payload State.status)

end Sys2Proof.Machine
end

