-- ==== Sys2Proof/Machine/Reset.lean ====
section
/-! DEFINITION. The resets (R23, R24, R66, R84, R99, R116, R137, R148, R157, R165, R167, R178) and the RESET pin (R177):
the commands POWER_ON_RESET, RESET_ASSERTED and SOFT_RESET_EFFECT. -/

namespace Sys2Proof.Machine

/-! ### POWER_ON_RESET -/

/-- R157: Egress Control after a power-on reset with this level on the ALARM pin. -/
def EgressControl.afterPowerOn (alarm : Bool) : EgressControl :=
  { asserted := alarm, measuring := false, mode := if alarm then .egress else .normal,
    cause := if alarm then some .alarm else none }

/-- R23, R167: with BOOTLD high the unit starts a load from flash address 0, and the state moves from EMPTY to LOADING
without a notice. -/
def State.bootLoad (s : State) : State :=
  if s.pins.bootld then (s.moveSite .loading).startLoad 0 else s

/-- The part after a power-on reset with these levels; the commands that wait are not the part's and stay. -/
def State.powerOn (s : State) (rate : BitVec 2) (bootld alarm : Bool) : State :=
  State.bootLoad
    { State.reset with
      pending := s.pending
      pins := { resetAsserted := false, rate := rate, bootld := bootld }
      egress := .afterPowerOn alarm }

/-- R23: every block takes its power-on values, whatever the part was doing. -/
def execPowerOnReset (rate : BitVec 2) (bootld alarm : Bool) (s : State) : Host.Outcome State Fault Refusal :=
  .next (s.powerOn rate bootld alarm)

/-! ### RESET_ASSERTED (R177) -/

/-- R165, R167: an aborted transfer: FCS is raised at once and the unit is IDLE with no operation; the last outcome stays.
The running check is cleared (DESIGN CHOICE, notes/assumptions/26.md). -/
def TransferUnit.aborted (t : TransferUnit) : TransferUnit := { TransferUnit.cleared with last := t.last }

/-- R165: a running transfer is aborted, one that does not run is left as it is. -/
def State.abortTransfer (s : State) : State := if s.transferRuns then s.setTransfer s.transfer.aborted else s

/-- R177, R178: the running part stops, ALERT is low, a running transfer is aborted, TXD idles high, and the straps are
sampled. -/
def State.assertReset (s : State) (rate : BitVec 2) (bootld : Bool) : State :=
  { s.abortTransfer with
    pins := { resetAsserted := true, rate := rate, bootld := bootld }
    link := { s.link with sending := none } }

/-- R177. -/
def execResetAsserted (rate : BitVec 2) (bootld : Bool) (s : State) : Host.Outcome State Fault Refusal :=
  .next (s.assertReset rate bootld)

/-! ### SOFT_RESET_EFFECT (R172) -/

/-- R24: LOADING becomes INVALID, DRAINING becomes VALID with the pending open or load dropped, no notice. -/
def SiteStore.softReset (s : SiteStore) : SiteStore :=
  { s with
    state := match s.state with
      | .loading => .invalid
      | .draining => .valid
      | state => state
    drain := none }

/-- R116: the live tables, the pending list and the epoch are kept; a WAITING turn is dropped; the timer runs in VALID. So
it is on a return from DRAINING too, where R102 says that the turn state is kept (DESIGN CHOICE,
notes/assumptions/28.md). -/
def ConditionUnit.softReset (u : ConditionUnit) (valid : Bool) : ConditionUnit :=
  { u with turn := .idle, timer := if valid then some Parameters.defaults.turnPeriod else none }

/-- R137: a polling cycle is abandoned, the channels are kept; the timer runs in VALID. -/
def FlowMonitor.softReset (f : FlowMonitor) (valid : Bool) : FlowMonitor :=
  { f with cycle := none, timer := if valid then some Parameters.defaults.sampleInterval else none }

/-- R66: every lane FREE, its heap emptied; its label table stands until its next search. -/
def Lane.softReset (lane : Lane) : Lane := { Lane.cleared with labels := lane.labels }

/-- R66: the lanes after a soft reset. -/
def State.softResetLanes (s : State) : Table Lane :=
  Table.tabulate .cleared Config.lanes fun l => (s.lane l).softReset

/-- R157: the mode is set from the filtered level, which is kept with the running measure. -/
def EgressControl.softReset (e : EgressControl) : EgressControl :=
  { e with mode := if e.asserted then .egress else .normal, cause := if e.asserted then some .alarm else none }

/-- The soft reset of every block. -/
def State.softResetAll (s : State) : State :=
  let site := s.site.softReset
  let valid := decide (site.state = .valid)
  { s with
    site := site
    transfer := if s.transferRuns then s.transfer.aborted else s.transfer
    conditions := s.conditions.softReset valid
    flow := s.flow.softReset valid
    dispatcher := { screens := [], queue := [] }
    lanes := s.softResetLanes
    store := { slots := [], holders := [] }
    egress := s.egress.softReset
    link := .afterReset .soft }

/-- R172: the reset takes effect when the SOFT RESET's reply, the last of the queue, has been sent. Without effect unless
a SOFT RESET has been taken and the replies ahead of its end have gone. -/
def State.softResetEffect (s : State) : State :=
  if s.link.softReset && s.link.replies.isEmpty then s.softResetAll else s

/-- R172. -/
def execSoftResetEffect (s : State) : Host.Outcome State Fault Refusal :=
  .next (s.event State.softResetEffect)

end Sys2Proof.Machine
end

