-- ==== Sys2Proof/Machine/Dispatch.lean ====
section
/-! DEFINITION. One arm per row of spec/opcode_table.json, in the table's order. -/

namespace Sys2Proof.Machine

def exec (i : Instr) (s : State) : Host.Outcome State Fault Refusal :=
  match i with
  | .powerOnReset rate bootld alarm => Sys2Proof.Machine.execPowerOnReset rate bootld alarm s
  | .ackStart payload => Sys2Proof.Machine.execAckStart payload s
  | .status payload => Sys2Proof.Machine.execStatus payload s
  | .softReset payload => Sys2Proof.Machine.execSoftReset payload s
  | .softResetEffect => Sys2Proof.Machine.execSoftResetEffect s
  | .setParam payload => Sys2Proof.Machine.execSetParam payload s
  | .getParam payload => Sys2Proof.Machine.execGetParam payload s
  | .siteOpen payload => Sys2Proof.Machine.execSiteOpen payload s
  | .siteClose payload => Sys2Proof.Machine.execSiteClose payload s
  | .tableWrite payload => Sys2Proof.Machine.execTableWrite payload s
  | .tableRead payload => Sys2Proof.Machine.execTableRead payload s
  | .siteLoad payload => Sys2Proof.Machine.execSiteLoad payload s
  | .siteDump payload => Sys2Proof.Machine.execSiteDump payload s
  | .condition payload => Sys2Proof.Machine.execCondition payload s
  | .conditionRead payload => Sys2Proof.Machine.execConditionRead payload s
  | .turnNow payload => Sys2Proof.Machine.execTurnNow payload s
  | .setClock payload => Sys2Proof.Machine.execSetClock payload s
  | .route payload => Sys2Proof.Machine.execRoute payload s
  | .cancel payload => Sys2Proof.Machine.execCancel payload s
  | .collect payload => Sys2Proof.Machine.execCollect payload s
  | .screenState payload => Sys2Proof.Machine.execScreenState payload s
  | .flowRead payload => Sys2Proof.Machine.execFlowRead payload s
  | .egressEnter payload => Sys2Proof.Machine.execEgressEnter payload s
  | .egressResume payload => Sys2Proof.Machine.execEgressResume payload s
  | .alarmPinChange => Sys2Proof.Machine.execAlarmPinChange s
  | .alarmAsserted => Sys2Proof.Machine.execAlarmAsserted s
  | .alarmClear => Sys2Proof.Machine.execAlarmClear s
  | .badCheck bytes => Sys2Proof.Machine.execBadCheck bytes s
  | .unknownKind kind => Sys2Proof.Machine.execUnknownKind kind s
  | .badLength length => Sys2Proof.Machine.execBadLength length s
  | .frameTimeout late => Sys2Proof.Machine.execFrameTimeout late s
  | .linkBusy => Sys2Proof.Machine.execLinkBusy s
  | .frameBoundary => Sys2Proof.Machine.execFrameBoundary s
  | .startRepeatTimerExpiry => Sys2Proof.Machine.execStartRepeatTimerExpiry s
  | .grant => Sys2Proof.Machine.execGrant s
  | .recordComplete lane => Sys2Proof.Machine.execRecordComplete lane s
  | .slotGrant => Sys2Proof.Machine.execSlotGrant s
  | .holdTimerExpiry slot => Sys2Proof.Machine.execHoldTimerExpiry slot s
  | .drainEnd => Sys2Proof.Machine.execDrainEnd s
  | .turnTimerExpiry => Sys2Proof.Machine.execTurnTimerExpiry s
  | .applyStep => Sys2Proof.Machine.execApplyStep s
  | .tick => Sys2Proof.Machine.execTick s
  | .minuteBoundary => Sys2Proof.Machine.execMinuteBoundary s
  | .sampleTimerExpiry => Sys2Proof.Machine.execSampleTimerExpiry s
  | .pollSent => Sys2Proof.Machine.execPollSent s
  | .counterReply b0 b1 b2 b3 b4 => Sys2Proof.Machine.execCounterReply b0 b1 b2 b3 b4 s
  | .replyTimeout => Sys2Proof.Machine.execReplyTimeout s
  | .busyClear => Sys2Proof.Machine.execBusyClear s
  | .flashTimeout => Sys2Proof.Machine.execFlashTimeout s
  | .headerRead bytes => Sys2Proof.Machine.execHeaderRead bytes s
  | .recordRead bytes => Sys2Proof.Machine.execRecordRead bytes s
  | .resetAsserted rate bootld => Sys2Proof.Machine.execResetAsserted rate bootld s
  | .sync bytes => Sys2Proof.Machine.execSync s bytes

end Sys2Proof.Machine
end

