-- ==== Sys2Proof/Safety.lean ====
section
/-! DEFINITION. What the statements say about a state: when the part takes a frame, what a reply leaves, which command is
due, and the invariants that every step keeps. A safe run of this part is one whose every state meets them; no command
stops it. -/

namespace Sys2Proof

/-- The request frame a command is: its kind and its payload; none for an event of the part. -/
def Instr.requestOf : Instr → Option (Machine.RequestKind × List Byte)
  | .ackStart p => some (.ackStart, p)
  | .status p => some (.status, p)
  | .softReset p => some (.softReset, p)
  | .setParam p => some (.setParam, p)
  | .getParam p => some (.getParam, p)
  | .siteOpen p => some (.siteOpen, p)
  | .siteClose p => some (.siteClose, p)
  | .tableWrite p => some (.tableWrite, p)
  | .tableRead p => some (.tableRead, p)
  | .siteLoad p => some (.siteLoad, p)
  | .siteDump p => some (.siteDump, p)
  | .condition p => some (.condition, p)
  | .conditionRead p => some (.conditionRead, p)
  | .turnNow p => some (.turnNow, p)
  | .setClock p => some (.setClock, p)
  | .route p => some (.route, p)
  | .cancel p => some (.cancel, p)
  | .collect p => some (.collect, p)
  | .screenState p => some (.screenState, p)
  | .flowRead p => some (.flowRead, p)
  | .egressEnter p => some (.egressEnter, p)
  | .egressResume p => some (.egressResume, p)
  | .powerOnReset _ _ _ => none
  | .softResetEffect => none
  | .alarmPinChange => none
  | .alarmAsserted => none
  | .alarmClear => none
  | .badCheck _ => none
  | .unknownKind _ => none
  | .badLength _ => none
  | .frameTimeout _ => none
  | .linkBusy => none
  | .frameBoundary => none
  | .startRepeatTimerExpiry => none
  | .grant => none
  | .recordComplete _ => none
  | .slotGrant => none
  | .holdTimerExpiry _ => none
  | .drainEnd => none
  | .turnTimerExpiry => none
  | .applyStep => none
  | .tick => none
  | .minuteBoundary => none
  | .sampleTimerExpiry => none
  | .pollSent => none
  | .counterReply _ _ _ _ _ => none
  | .replyTimeout => none
  | .busyClear => none
  | .flashTimeout => none
  | .headerRead _ => none
  | .recordRead _ => none
  | .resetAsserted _ _ => none
  | .sync _ => none

/-- The command is a whole frame that is judged at its end: a request, or a frame answered ERROR by its check, its kind or
its length (R168). -/
def Instr.wholeFrame (c : Instr) : Prop :=
  c.requestOf.isSome ∨ (∃ bytes, c = .badCheck bytes ∧ byteSum bytes ≠ 0) ∨
    (∃ kind, c = .unknownKind kind ∧ isRequestKind kind = false) ∨
    (∃ length, c = .badLength length ∧ 1024 < length.toNat)

namespace Machine

/-! ### Taking and answering frames -/

/-- RESET is not asserted (R177). -/
def State.Running (s : State) : Prop := s.pins.resetAsserted = false

/-- The receiver takes the next frame, and the reply queue takes its reply (R169, R172, R177). -/
def State.Open (s : State) : Prop := s.Running ∧ s.link.softReset = false ∧ s.link.replies.length < 7

/-- As `Open`, after ACK START (R171). -/
def State.Started (s : State) : Prop := s.Open ∧ s.link.startPending = false

/-- Some lane is SEARCHING (R15, R107). -/
def State.Searching (s : State) : Prop := ∃ l, l < 4 ∧ (s.lane l).state = .searching

/-- The host link after a frame that offers nothing: the receiver in HUNT, and one reply at the end (R168, R169). -/
def HostLink.answered (k : HostLink) (kind : Byte) (payload : List Byte) : HostLink :=
  { k with
    reception := .hunt
    assembled := []
    gapTimer := false
    replies := k.replies ++ [.reply { kind := kind, payload := payload }] }

/-- The part answers a frame and changes nothing else. -/
def State.answers (s : State) (kind : Byte) (payload : List Byte) : State :=
  { s with link := s.link.answered kind payload }

/-- Notices offered one after the other (R175). -/
def HostLink.offerAll (k : HostLink) (notices : List Notice) : HostLink := notices.foldl (fun k n => k.offer n) k

/-- The table a record belongs to. -/
def Record.table : Record → TableId
  | .header _ => .header
  | .node _ => .nodes
  | .edge _ => .edges
  | .adjacency _ => .adjacency
  | .group _ => .groups
  | .member _ => .members
  | .directory _ => .directory
  | .gate _ => .gates
  | .profile _ => .profiles
  | .screen _ => .screens
  | .channel _ => .channels
  | .schedule _ => .schedule

/-- R107: the pending list is not empty, or some channel's level differs from its published level. -/
def State.HasWork (s : State) : Prop :=
  s.conditions.edits ≠ [] ∨ ∃ c, c < 64 ∧ (s.channel c).level ≠ s.published c

/-- R140, R144: the schedule entry has an index of the site, is enabled, and its days hold this day. -/
def State.Fires (s : State) (day i : Nat) : Prop :=
  i < s.site.header.scheduleCount ∧ (s.scheduleEntry i).enabled = true ∧ (s.scheduleEntry i).days.getLsbD day = true

/-! ### Offers of the schedule, and entry into VALID -/

/-- R140, R144: the schedule entry is due so far today, by the clock as it stands. -/
def State.DueSoFar (s : State) (i : Nat) : Prop :=
  s.Fires s.schedule.day i ∧ (s.scheduleEntry i).minute ≤ s.schedule.second / 60

/-- R144 item 1: candidate i stands before candidate j: the LATE entries that are not due today first, in their order, then
those due today by minute and, within a minute, by index. -/
def State.CandidateBefore (s : State) (i j : Nat) : Prop :=
  (¬ s.DueSoFar i ∧
    (s.DueSoFar j ∨ ∃ before between after, s.schedule.late = before ++ i :: (between ++ j :: after))) ∨
  (s.DueSoFar i ∧ s.DueSoFar j ∧
    ((s.scheduleEntry i).minute < (s.scheduleEntry j).minute ∨
      ((s.scheduleEntry i).minute = (s.scheduleEntry j).minute ∧ i < j)))

/-- R144 items 1 and 3: these are the survivors of a catch-up, in their order: of the candidates for one target the last. -/
structure State.Survivors (s : State) (kept : List Nat) : Prop where
  members : ∀ i, i ∈ kept ↔ (i ∈ s.schedule.late ∨ s.DueSoFar i) ∧
    ∀ j, j ∈ s.schedule.late ∨ s.DueSoFar j → s.CandidateBefore i j →
      (s.scheduleEntry j).target ≠ (s.scheduleEntry i).target
  order : kept.Pairwise s.CandidateBefore

/-- R105, R141: schedule entries offered one after the other, from the head of the list. In VALID an entry's edit takes the
place of the one for its target, or joins the end of a list below 64, and the entry leaves the LATE list. Refused, by a full
list or outside VALID, it joins the LATE list with a SCHEDULE LATE notice that carries the length of that list, unless it is
on it already. -/
inductive State.Offers : State → List Nat → State → Prop where
  | done (s : State) : State.Offers s [] s
  | replaced {s t : State} {i : Nat} {rest : List Nat} {before after : List Edit} {e : Edit} :
      s.site.state = .valid → s.conditions.edits = before ++ e :: after → e.target = (s.scheduleEntry i).target →
      (∀ x ∈ before ++ after, x.target ≠ (s.scheduleEntry i).target) →
      State.Offers { s with
        conditions := { s.conditions with
          edits := before ++ { target := (s.scheduleEntry i).target, value := (s.scheduleEntry i).value
                               source := .schedule i } :: after }
        schedule := { s.schedule with late := s.schedule.late.filter fun j => j ≠ i } } rest t →
      State.Offers s (i :: rest) t
  | appended {s t : State} {i : Nat} {rest : List Nat} :
      s.site.state = .valid → (∀ x ∈ s.conditions.edits, x.target ≠ (s.scheduleEntry i).target) →
      s.conditions.edits.length < 64 →
      State.Offers { s with
        conditions := { s.conditions with
          edits := s.conditions.edits ++ [{ target := (s.scheduleEntry i).target, value := (s.scheduleEntry i).value
                                            source := .schedule i }] }
        schedule := { s.schedule with late := s.schedule.late.filter fun j => j ≠ i } } rest t →
      State.Offers s (i :: rest) t
  | refused {s t : State} {i : Nat} {rest : List Nat} :
      s.site.state ≠ .valid ∨
        ((∀ x ∈ s.conditions.edits, x.target ≠ (s.scheduleEntry i).target) ∧ 64 ≤ s.conditions.edits.length) →
      i ∉ s.schedule.late →
      State.Offers { s with
        schedule := { s.schedule with late := s.schedule.late ++ [i] }
        link := s.link.offer (.scheduleLate i (s.scheduleEntry i).target (s.scheduleEntry i).minute
          (s.schedule.late.length + 1)) } rest t →
      State.Offers s (i :: rest) t
  | refusedAgain {s t : State} {i : Nat} {rest : List Nat} :
      s.site.state ≠ .valid ∨
        ((∀ x ∈ s.conditions.edits, x.target ≠ (s.scheduleEntry i).target) ∧ 64 ≤ s.conditions.edits.length) →
      i ∈ s.schedule.late → State.Offers s rest t → State.Offers s (i :: rest) t

/-- R22 step 1, R102: the live tables stand at the defaults of the site's tables, and the pending list is empty. That an edge
at or above the edge count holds no motion mode is the model's choice (notes/assumptions/29.md). -/
structure State.AtDefaults (s : State) : Prop where
  closures : ∀ e, s.closure e =
    if e < s.site.header.edgeCount ∧ (s.edge e).closedByDefault = true then .closed else .opened
  motions : ∀ e, s.motion e = if e < s.site.header.edgeCount then
      (match (s.edge e).cls, (s.edge e).direction with
        | .escalator, .runAB => some .runAB | .escalator, .runBA => some .runBA | .escalator, .stopped => some .stopped
        | .travelator, .runAB => some .runAB | .travelator, .runBA => some .runBA | .travelator, .stopped => some .stopped
        | _, _ => none)
    else none
  gates : ∀ g, s.gate g = if g < 64 then s.gateDefault g else .opened
  levels : ∀ c, s.published c = if c < 64 ∧ (s.channelConfig c).enabled = true then .clear else .off
  edits : s.conditions.edits = []

/-- R22 step 2, R136: every enabled channel is SEEDING and the others are OFF, and the sample timer has started. -/
structure State.Seeded (s : State) : Prop where
  channels : ∀ c, s.channel c =
    { state := if c < 64 ∧ (s.channelConfig c).enabled = true then .seeding else .off
      level := if c < 64 ∧ (s.channelConfig c).enabled = true then .clear else .off
      filter := 0, average := 0, activation := 0, debounce := 0, plateau := 0, missed := 0, change := 0
      lastCount := none }
  timer : s.flow.timer = some s.link.parameters.sampleInterval
  cycle : s.flow.cycle = none

/-- R13, R22, R112, R113, R146: tables that have passed validation have entered VALID, in the sequence of R22: SITE STATE; the
defaults and the seeded channels with the LATE list emptied; with the clock SET, the catch-up; the immediate turn with cause
SITE; and the turn timer. -/
structure State.EntersValid (s t : State) (cause : SiteCause) : Prop where
  site : t.site = { s.site with state := .valid, generation := s.site.generation + 1 }
  sequence : ∃ base u v : State,
    base = { s with
      site := t.site
      conditions := base.conditions
      flow := base.flow
      schedule := { s.schedule with late := [] }
      link := s.link.offer (.siteState .valid (s.site.generation + 1) cause) } ∧
    base.conditions.epoch = s.conditions.epoch ∧ base.AtDefaults ∧ base.Seeded ∧
    (s.schedule.clockSet = false → u = base) ∧
    (s.schedule.clockSet = true → ∃ kept, base.Survivors kept ∧ base.Offers kept u) ∧
    exec .applyStep { u with conditions := { u.conditions with turn := .waiting .site } } = .next v ∧
    t = { v with conditions := { v.conditions with timer := some s.link.parameters.turnPeriod } }

/-! ### Screens, slots and lanes -/

/-- R79: slot n has been freed, its screen IDLE and no lane in the holders list: nothing else of the store, the screens and
the lanes differs. -/
structure State.FreedEmpty (s t : State) (n screen : Nat) : Prop where
  slot : t.slot n = none
  slots : ∀ m, m ≠ n → t.slot m = s.slot m
  holders : t.store.holders = []
  idle : t.screen screen = .idle
  screens : ∀ i, i ≠ screen → t.screen i = s.screen i
  lanes : t.lanes = s.lanes

/-- R77, R79: a lane's record stands in slot n, its hold timer started with the result hold; the lane is FREE, its screen
READY with the slot; nothing else of the slots and the lanes differs. -/
structure State.Stored (s t : State) (n l : Nat) (r : RouteRecord) : Prop where
  slot : t.slot n = some { record := r, screen := r.screen, hold := s.link.parameters.resultHold }
  slots : ∀ m, m ≠ n → t.slot m = s.slot m
  ready : t.screen r.screen = .ready n
  lane : (t.lane l).state = .free ∧ (t.lane l).request = none ∧ (t.lane l).context = none ∧ (t.lane l).targets = [] ∧
    (t.lane l).record = none ∧ (t.lane l).trimmed = false ∧ (t.lane l).egress = false ∧
    (t.lane l).destClosed = false ∧ (t.lane l).clockUnset = false
  lanes : ∀ m, m ≠ l → t.lane m = s.lane m

/-- R79, R81, R82, R94: slot n, of this screen, has been freed. Without a lane in the holders list it is FREE; otherwise the
record of the first of them stands in it and RESULT READY has been offered. -/
structure State.SlotFreed (s t : State) (n screen : Nat) : Prop where
  alone : s.store.holders = [] → s.FreedEmpty t n screen ∧ t.link = s.link
  granted : ∀ l rest r, s.store.holders = l :: rest → (s.lane l).record = some r → r.screen ≠ screen →
    s.Stored t n l r ∧ t.screen screen = .idle ∧ (∀ i, i ≠ screen → i ≠ r.screen → t.screen i = s.screen i) ∧
      t.store.holders = rest ∧ t.link = s.link.offer (.resultReady r.screen n r.tag r.status)
  frame : t = { s with
    store := t.store
    dispatcher := { s.dispatcher with screens := t.dispatcher.screens }
    lanes := t.lanes
    link := { s.link with notices := t.link.notices, overrunMark := t.link.overrunMark, dropped := t.link.dropped } }

/-- R60, R77: lane l has completed a record for its request: stored in the FREE slot of lowest number, with RESULT READY
offered; or, with no slot FREE, held, the lane HOLDING and at the end of the holders list. -/
structure State.Completed (s t : State) (l : Nat) (q : Request) (r : RouteRecord) : Prop where
  stored : ∀ n, n < 48 → s.slot n = none → (∀ m, m < n → s.slot m ≠ none) →
    s.Stored t n l r ∧ t.store.holders = s.store.holders ∧
      t.link = s.link.offer (.resultReady r.screen n r.tag r.status)
  held : (∀ n, n < 48 → s.slot n ≠ none) →
    (t.lane l).state = .holding ∧ (t.lane l).record = some r ∧ (t.lane l).request = some q ∧
      (∀ m, m ≠ l → t.lane m = s.lane m) ∧ t.store = { s.store with holders := s.store.holders ++ [l] } ∧
      t.screen r.screen = .active l ∧ t.link = s.link
  screens : ∀ i, i ≠ r.screen → t.screen i = s.screen i

/-- The requests that a change of mode takes from the SEARCHING and HOLDING lanes, SL0 first (R96). -/
def State.handed (s : State) : List Request :=
  (List.range 4).filterMap fun l => if (s.lane l).state = .free then none else (s.lane l).request

/-- R88 checks 3 and 4, made again on a handed-back request: the screen and the destination are still of the site (R96). -/
abbrev State.Current (s : State) (r : Request) : Prop :=
  r.screen < 64 ∧ (s.screenRecord r.screen).enabled = true ∧ r.destination < 1024 ∧
    r.destination < s.site.header.directoryCount ∧ (s.directoryEntry r.destination).kind ≠ .unused

/-- The REQUEST DROPPED notice of a request (R98). -/
def Request.droppedNotice (r : Request) (reason : DropReason) : Notice := .requestDropped r.screen r.tag reason

/-- R152, R155, R96: the lanes have handed their requests back and the dispatcher has taken them: `kept` at the head of the
queue, marked for the new mode, `dropped` for the site, and entries beyond 32 removed from the tail. Notices are offered
before, for the dropped requests, and after. -/
structure State.HandedBack (s t : State) (mark : Bool) (kept dropped : List Request) (before after : List Notice) : Prop where
  lanes : ∀ l, l < 4 → (t.lane l).state = .free ∧ (t.lane l).request = none ∧ (t.lane l).context = none ∧
    (t.lane l).record = none
  holders : t.store = { s.store with holders := [] }
  queue : t.dispatcher.queue = ((kept.map fun r => ({ request := r, egressMark := mark } : QueueEntry)) ++
    s.dispatcher.queue.map fun e => ({ e with egressMark := mark } : QueueEntry)).take 32
  queued : ∀ e ∈ t.dispatcher.queue, t.screen e.request.screen = .queued
  ready : ∀ i n, s.screen i = .ready n → t.screen i = .ready n
  idle : ∀ i, (∀ e ∈ t.dispatcher.queue, e.request.screen ≠ i) → (∀ n, s.screen i ≠ .ready n) → t.screen i = .idle
  notices : t.link = s.link.offerAll (before ++ (dropped.map fun r => r.droppedNotice .site) ++
    (((kept ++ s.dispatcher.queue.map QueueEntry.request).drop 32).reverse.map fun r => r.droppedNotice .mode) ++ after)
  frame : t = { s with
    egress := t.egress, site := t.site, flow := t.flow, dispatcher := t.dispatcher, lanes := t.lanes, store := t.store
    link := t.link }

/-- R152: entry into EGRESS with this cause at this filtered level: a drain is abandoned, and the work is handed back under
the tables of a VALID site, and dropped under those of any other. -/
structure State.EntersEgress (s u : State) (cause : EntryCause) (asserted : Bool) : Prop where
  egress : u.egress = { s.egress with asserted := u.egress.asserted, measuring := u.egress.measuring
                                      mode := .egress, cause := some cause }
  valid : s.site.state = .valid → u.site = s.site ∧ u.flow = s.flow ∧
    s.HandedBack u true (s.handed.filter fun r => s.Current r) (s.handed.filter fun r => ¬ s.Current r) []
      [.egress .entered .egress (some cause) asserted]
  draining : s.site.state = .draining →
    u.site = { s.site with state := .valid, drain := none } ∧
      u.flow = { s.flow with timer := some s.link.parameters.sampleInterval } ∧
      s.HandedBack u true (s.handed.filter fun r => s.Current r) (s.handed.filter fun r => ¬ s.Current r)
        [.siteState .valid s.site.generation .egress] [.egress .entered .egress (some cause) asserted]
  other : s.site.state ≠ .valid → s.site.state ≠ .draining → u.site = s.site ∧ u.flow = s.flow ∧
    s.HandedBack u true [] s.handed [] [.egress .entered .egress (some cause) asserted]

/-- R160, R162, R166: a load has ended without a VALID site: INVALID, the unit IDLE with its last outcome, and SITE STATE and
TRANSFER DONE offered. -/
def State.loadFailed (s : State) (outcome : TransferOutcome) : State :=
  { s with
    site := { s.site with state := .invalid }
    conditions := { s.conditions with timer := none }
    flow := { s.flow with timer := none, cycle := none }
    transfer := { state := .idle, operation := none, address := none, imageLength := none, check := s.transfer.check
                  expected := 0, offset := 0, position := none, sent := [], last := some (.load, outcome) }
    link := s.link.offerAll [.siteState .invalid s.site.generation .load,
      .transferDone .load outcome (s.transfer.address.getD 0) s.transfer.imageLength none] }

/-- R163, R166: a dump has ended. -/
def State.dumpEnded (s : State) (outcome : TransferOutcome) : State :=
  { s with
    transfer := { state := .idle, operation := none, address := none, imageLength := none, check := s.transfer.check
                  expected := 0, offset := 0, position := none, sent := [], last := some (.dump, outcome) }
    link := s.link.offer
      (.transferDone .dump outcome (s.transfer.address.getD 0) s.transfer.imageLength none) }

/-- The smallest number not below a quotient: `q` is the ceiling of n / d (00_scope, Rounding). -/
def IsCeil (q n d : Nat) : Prop := n ≤ q * d ∧ q * d < n + d

/-! ### What is due at once

The manual lets some events follow "at once" when their conditions come to hold. They are commands of the table here, and
a sender that keeps the manual's time sends them, and the boundary of a minute, before anything else
(notes/assumptions/6.md). -/

/-- The commands whose conditions hold and which the manual lets nothing wait for (R15, R92, R110, R138, R172). -/
def State.due (s : State) : List Instr :=
  (if s.link.softReset && s.link.replies.isEmpty && s.link.sending.isNone then [.softResetEffect] else [])
    ++ (if s.schedule.boundaryDue then [.minuteBoundary] else [])
    ++ (match s.conditions.turn with
        | .waiting _ => if s.anySearching then [] else [.applyStep]
        | .idle => [])
    ++ (if s.site.state = .draining && !s.anySearching then [.drainEnd] else [])
    ++ (if s.grantable then [.grant] else [])

/-! ### Invariants -/

/-- The tables of the Site Store are canonical (R1, R23). -/
structure SiteStore.Canonical (s : SiteStore) : Prop where
  nodes : Table.wf .cleared s.nodes = true
  edges : Table.wf .cleared s.edges = true
  adjacency : Table.wf 0 s.adjacency = true
  groups : Table.wf .cleared s.groups = true
  members : Table.wf .cleared s.members = true
  directory : Table.wf .cleared s.directory = true
  gates : Table.wf .opened s.gates = true
  profiles : Table.wf .cleared s.profiles = true
  screens : Table.wf .cleared s.screens = true
  channels : Table.wf .cleared s.channels = true
  schedule : Table.wf .cleared s.schedule = true

/-- Every table of the part is canonical, so that equal contents are equal data. -/
structure State.Canonical (s : State) : Prop where
  site : s.site.Canonical
  closures : Table.wf .opened s.conditions.closures = true
  motions : Table.wf none s.conditions.motions = true
  gates : Table.wf .opened s.conditions.gates = true
  levels : Table.wf .off s.conditions.levels = true
  channels : Table.wf .cleared s.flow.channels = true
  screens : Table.wf .idle s.dispatcher.screens = true
  lanes : Table.wf .cleared s.lanes = true
  labels : ∀ l, Table.wf .unseen (s.lane l).labels = true
  slots : Table.wf none s.store.slots = true

/-- R161: every field of every record held by the Site Store lies within its range. -/
def State.RecordsInRange (s : State) : Prop := ∀ t i, (s.site.record t i).inRange = true

/-- R90: the request queue holds at most 32 requests. R104: the pending list holds at most 64 entries, no two of one
target. R141: the LATE list holds at most 128 indices of schedule entries, none twice. R91: a pass count is at most 8. -/
structure State.ListsBounded (s : State) : Prop where
  queue : s.dispatcher.queue.length ≤ 32
  edits : s.conditions.edits.length ≤ 64
  targets : (s.conditions.edits.map Edit.target).Nodup
  late : s.schedule.late.Nodup
  lateCount : s.schedule.late.length ≤ 128
  lateEntries : ∀ i ∈ s.schedule.late, i < 128
  passes : ∀ e ∈ s.dispatcher.queue, e.request.passes ≤ 8
  granted : ∀ l r, (s.lane l).request = some r → r.passes ≤ 8

/-- R175, R176: the notice queue holds at most 48 notices, no two of one kind and subject; while the overrun mark is set the
queue is full, and the dropped count is 1 to 255, and 0 otherwise. R169: the reply queue holds at most 8 entries, the
eighth being a busy run, and a busy run stands for 1 to 65535 replies. R168: the receiver holds as much of a frame as its
state says, SYNC first, and the gap timer runs outside HUNT. -/
structure HostLink.Bounded (k : HostLink) : Prop where
  notices : k.notices.length ≤ 48
  keys : (k.notices.map fun n => (n.number, n.subject)).Nodup
  marked : k.overrunMark = true → k.notices.length = 48 ∧ 1 ≤ k.dropped ∧ k.dropped ≤ 255
  unmarked : k.overrunMark = false → k.dropped = 0
  replies : k.replies.length ≤ 8
  last : k.replies.length = 8 → ∃ n, k.replies.getLast? = some (.busyRun n)
  runs : ∀ n, ReplyEntry.busyRun n ∈ k.replies → 1 ≤ n ∧ n ≤ 65535
  hunt : k.reception = .hunt → k.assembled = [] ∧ k.gapTimer = false
  frame : k.reception ≠ .hunt → k.assembled.head? = some 0xA5 ∧ k.gapTimer = true
  length : k.reception = .length → k.assembled.length = 1 ∨ k.assembled.length = 2
  kind : k.reception = .kind → k.assembled.length = 3
  payload : k.reception = .payload → 4 ≤ k.assembled.length ∧ k.assembled.length < 4 + wordAt k.assembled 1
  check : k.reception = .check → k.assembled.length = 4 + wordAt k.assembled 1
  stated : k.reception ≠ .hunt → k.reception ≠ .length → wordAt k.assembled 1 ≤ 1024

/-- R174: the ranges of the times, and the START enable, which stays enabled. -/
structure Parameters.InRange (p : Parameters) : Prop where
  turnPeriod : 1 ≤ p.turnPeriod ∧ p.turnPeriod ≤ 60
  resultHold : 5 ≤ p.resultHold ∧ p.resultHold ≤ 300
  sampleInterval : 5 ≤ p.sampleInterval ∧ p.sampleInterval ≤ 60
  start : p.enables.getLsbD 0 = true

/-- The values the blocks hold together. R138: the clock's ranges, 0 while UNSET. R150: an ASSERTED filtered level means
EGRESS, which holds a cause. R15: a pending open or load is held in DRAINING. R108, R119, R136: where the timers run and a
cycle may poll. R158, R159, R163: what a transfer's operation and state go with. R21, R92: a lane searches in VALID and
DRAINING only. -/
structure State.Consistent (s : State) : Prop where
  second : s.schedule.second ≤ 86399
  day : s.schedule.day ≤ 6
  unset : s.schedule.clockSet = false → s.schedule.second = 0 ∧ s.schedule.day = 0
  alarm : s.egress.asserted = true → s.egress.mode = .egress
  cause : s.egress.cause.isSome = true ↔ s.egress.mode = .egress
  drain : s.site.drain.isSome = true ↔ s.site.state = .draining
  turnTimer : s.conditions.timer.isSome = true ↔ s.site.state = .valid ∨ s.site.state = .draining
  sampleTimer : s.flow.timer.isSome = true ↔ s.site.state = .valid
  cycle : s.flow.cycle.isSome = true → s.site.state = .valid
  idle : s.transfer.operation.isSome = true ↔ s.transfer.state ≠ .idle
  loads : s.transfer.operation = some .load → s.site.state = .loading
  loading : s.Running → s.site.state = .loading → s.transfer.operation = some .load
  dumps : s.transfer.operation = some .dump → s.site.state = .valid
  reading : s.transfer.state = .readHeader ∨ s.transfer.state = .readTables ∨ s.transfer.state = .validate →
    s.transfer.operation = some .load
  writing : s.transfer.state = .erase ∨ s.transfer.state = .program → s.transfer.operation = some .dump
  searching : s.Searching → s.site.state = .valid ∨ s.site.state = .draining

/-- R76, R85: a screen has at most one item, and the item matches its state: a queue entry, a lane, or an occupied slot;
the holders list holds exactly the HOLDING lanes; and while it is not empty all 48 slots are OCCUPIED. -/
structure State.Outstanding (s : State) : Prop where
  numbers : ∀ i, s.screen i ≠ .idle → i < 64
  entries : (s.dispatcher.queue.map fun e => e.request.screen).Nodup
  queued : ∀ i, s.screen i = .queued ↔ ∃ e ∈ s.dispatcher.queue, e.request.screen = i
  active : ∀ i l, s.screen i = .active l ↔
    l < 4 ∧ (s.lane l).state ≠ .free ∧ ∃ r, (s.lane l).request = some r ∧ r.screen = i
  ready : ∀ i n, s.screen i = .ready n ↔ n < 48 ∧ ∃ h, s.slot n = some h ∧ h.screen = i
  own : ∀ n h, n < 48 → s.slot n = some h → h.record.screen = h.screen
  taken : ∀ l, l < 4 → ((s.lane l).state ≠ .free ↔ (s.lane l).request.isSome = true)
  context : ∀ l, l < 4 → (s.lane l).state = .searching → (s.lane l).context.isSome = true
  records : ∀ l, l < 4 → ((s.lane l).state = .holding ↔ (s.lane l).record.isSome = true)
  recordScreens : ∀ l r q, l < 4 → (s.lane l).record = some r → (s.lane l).request = some q → r.screen = q.screen
  holders : ∀ l, l ∈ s.store.holders ↔ l < 4 ∧ (s.lane l).state = .holding
  order : s.store.holders.Nodup
  full : s.store.holders ≠ [] → ∀ n, n < 48 → (s.slot n).isSome = true

/-- R43, R62, R111: a SEARCHING lane's context is the present epoch, generation and mode, since no turn applies and no
table changes while it searches, and a change of mode ends its search. -/
def State.SearchesCurrent (s : State) : Prop :=
  ∀ l ctx, l < 4 → (s.lane l).state = .searching → (s.lane l).context = some ctx →
    ctx.epoch = s.conditions.epoch ∧ ctx.generation = s.site.generation ∧ ctx.mode = s.egress.mode

/-- R117: F, L and Act lie between 0 and 16368, the change of L between −16368 and 16368, the debounce count between 0 and 7,
the plateau count between 0 and 254, the missed count between 0 and 15, and a count between 0 and 1023. -/
structure Channel.InRange (c : Channel) : Prop where
  filter : 0 ≤ c.filter ∧ c.filter ≤ 16368
  average : 0 ≤ c.average ∧ c.average ≤ 16368
  activation : 0 ≤ c.activation ∧ c.activation ≤ 16368
  change : -16368 ≤ c.change ∧ c.change ≤ 16368
  lastCount : ∀ n, c.lastCount = some n → n ≤ 1023
  debounce : c.debounce ≤ 7
  plateau : c.plateau ≤ 254
  missed : c.missed ≤ 15

/-- R117, R121: every channel is in range, and so is every count kept in a poll cycle. -/
structure FlowMonitor.InRange (f : FlowMonitor) : Prop where
  channels : ∀ i, (Table.get Channel.cleared f.channels i).InRange
  samples : ∀ cycle i n, f.cycle = some cycle → (i, some n) ∈ cycle.samples → n ≤ 1023

/-- R127, R130, R132: under the settings of a VALID site, or of one that drains, a channel's debounce count stays below n, its
plateau count is 0 or below the plateau samples, and its missed count does not pass the stale limit. -/
def State.CountsFollowSettings (s : State) : Prop :=
  s.site.state = .valid ∨ s.site.state = .draining → ∀ i,
    (s.channel i).debounce < (s.channelConfig i).debounce ∧
    ((s.channel i).plateau = 0 ∨ (s.channel i).plateau < (s.channelConfig i).plateauSamples) ∧
    (s.channel i).missed ≤ (s.channelConfig i).staleLimit

/-! ### Routes through the graph -/

/-- A walk from the origin of a search that ends at a node, with the sum of the costs of its usable traversals: each step
leaves a node by an entry of its adjacency list, priced under the search context (R25, R35, R54). -/
inductive State.Walk (s : State) (ctx : SearchContext) : Nat → Nat → Prop where
  | start : State.Walk s ctx ctx.origin 0
  | leave {u c : Nat} (e cost : Nat) : State.Walk s ctx u c → e ∈ s.edgesOf u →
      s.priceUnder ctx e ((s.edge e).leave u).2 = some cost → State.Walk s ctx ((s.edge e).leave u).1 (c + cost)

/-- What R20's validation and the site's counts give a search: the tables pass, the counts are in range, and the search
begins at a node of the site. -/
structure State.SearchesSite (s : State) (ctx : SearchContext) : Prop where
  validated : s.site.firstFailure = none
  counts : s.site.header.inRange = true
  origin : ctx.origin < s.site.header.nodeCount

/-- R67, R40: traversals that lead from the origin of a search to a node, in the order walked: each leaves the node to which
the one before it led, by an entry of that node's adjacency list, from one endpoint of its edge to the other; it has its
edge's stored length, the class the walker meets (R26) and the cost of its pricing under the context, which makes it usable;
and the costs sum to the label. -/
structure State.RouteTo (s : State) (ctx : SearchContext) (route : List Traversal) (target label : Nat) : Prop where
  first : ∀ t, route.head? = some t → t.fromNode = ctx.origin
  joined : ∀ i t u, route[i]? = some t → route[i + 1]? = some u → u.fromNode = t.toNode
  last : ∀ t, route.getLast? = some t → t.toNode = target
  empty : route = [] ↔ target = ctx.origin
  listed : ∀ t ∈ route, t.edge ∈ s.edgesOf t.fromNode
  ends : ∀ t ∈ route, (t.ab = true → t.fromNode = (s.edge t.edge).a ∧ t.toNode = (s.edge t.edge).b) ∧
    (t.ab = false → t.fromNode = (s.edge t.edge).b ∧ t.toNode = (s.edge t.edge).a)
  length : ∀ t ∈ route, t.length = (s.edge t.edge).length
  resolved : ∀ t ∈ route,
    let running : Prop := ctx.mode = .normal ∧ (s.motion t.edge = some .runAB ∨ s.motion t.edge = some .runBA)
    (running → t.resolved = (s.edge t.edge).cls) ∧
    (¬ running → t.resolved = match (s.edge t.edge).cls with
      | .escalator => .stairs
      | .travelator => .walk
      | cls => cls)
  cost : ∀ t ∈ route, s.priceUnder ctx t.edge t.ab = some t.cost
  total : (route.map Traversal.cost).sum = label
  count : route.length ≤ 2047

/-- R20, R22, R88, R96, S1: the tables of a VALID or draining site have passed validation; only a VALID site holds waiting
requests, each of an enabled screen; and every search begins at a node of the site. -/
structure State.SiteValidated (s : State) : Prop where
  tables : s.site.state = .valid ∨ s.site.state = .draining →
    s.site.firstFailure = none ∧ s.site.header.inRange = true
  waiting : ∀ e ∈ s.dispatcher.queue, s.site.state = .valid ∧ e.request.screen < 64 ∧
    (s.screenRecord e.request.screen).enabled = true
  origins : ∀ l ctx, l < 4 → (s.lane l).state = .searching → (s.lane l).context = some ctx →
    ctx.origin < s.site.header.nodeCount

/-- R36, R37, R39, R73: the totals of a record are the sums over its legs, of which there are at most 40; its seconds and
minutes come from its total time; a record that is not FOUND has no legs. -/
structure RouteRecord.AddsUp (r : RouteRecord) : Prop where
  time : r.totalTime = (r.legs.map Leg.time).sum
  distance : r.distance = (r.legs.map Leg.distance).sum
  count : r.legs.length ≤ 40
  seconds : r.seconds = (r.totalTime + 5) / 10
  minutes : r.minutes = if r.seconds = 0 then 0 else max 1 ((r.seconds + 30) / 60)
  noRoute : r.status ≠ .found → r.legs = []

/-- R73: every record a slot or a lane holds adds up. -/
structure State.RecordsAddUp (s : State) : Prop where
  slots : ∀ n h, s.slot n = some h → h.record.AddsUp
  lanes : ∀ l r, (s.lane l).record = some r → r.AddsUp

end Machine

end Sys2Proof
end

