-- ==== Sys2Proof/Certificates/Slice0/Obligations.lean ====
section
/-! DEFINITION. The statements for the provers, family by family. `OBLIGATIONS.json` gives each its words and the rules it
cites. -/

open Sys2Proof Sys2Proof.Machine

/-! ### The machine as a whole -/

/-- The step takes the command at the front of the queue and runs it with the queue's rest, and every command of the
table, in every state, ends in a next state that leaves the commands that wait as they are. On an empty queue the part
idles, which is the model's choice (notes/assumptions/3.md). -/
def Obligations.StepRunsTheFrontCommand : Prop :=
  (∀ (c : Instr) (rest : List Instr) (s : State),
    step { s with pending := c :: rest } = exec c { s with pending := rest }) ∧
  (∀ (c : Instr) (s : State), ∃ t, exec c s = .next t ∧ t.pending = s.pending) ∧
  ∀ s : State, step { s with pending := [] } = .next { s with pending := [] }

/-! ### Resets -/

/-- Power-on reset: every block takes the power-on values of its chapter, with the straps and the ALARM pin as given; every
unlisted record reads as cleared. The last clause is the model's choice (notes/assumptions/1.md). -/
def Obligations.PowerOnResetClearsThePart : Prop :=
  (∀ (rate : BitVec 2) (bootld alarm : Bool) (s : State),
    ∃ t, exec (.powerOnReset rate bootld alarm) s = .next t ∧
      t.pending = s.pending ∧
      t.pins = { resetAsserted := false, rate := rate, bootld := bootld } ∧
      t.site.header = { nodeCount := 0, edgeCount := 0, adjacencyCount := 0, groupCount := 0, memberCount := 0,
                        directoryCount := 0, scheduleCount := 0, exitGroup := 0, fBusy := 24, fCrowded := 40,
                        fUnknown := 20 } ∧
      (∀ i, t.node i = { floor := 0, landmark := none, adjacencyStart := 0, adjacencyCount := 0 } ∧
        t.edge i = { a := 0, b := 0, cls := .walk, length := 0, heading := some 0, direction := .both, rideCode := 0,
                     gate := none, channel := none, closedByDefault := false } ∧
        t.adjacent i = 0 ∧
        t.group i = { selection := .nearest, memberStart := 0, memberCount := 1 } ∧
        t.member i = { node := 0, gate := none } ∧
        t.directoryEntry i = { kind := .unused, ref := 0, category := 0, ownGate := none } ∧
        t.gateDefault i = .opened ∧
        t.profile i = { pace := 40, stairs := false, escalator := false, travelator := false, elevator := false,
                        stairFactor := 16, liftWait := 0, aversion := 0 } ∧
        t.screenRecord i = { enabled := false, node := 0, facing := 0, profile := 0, priority := 0 } ∧
        t.channelConfig i = { enabled := false, role := .independent, reference := 0, weight := 0, busy := 1, crowded := 1
                              hysteresis := 0, ceiling := 1, debounce := 1, filterShift := 0, averageShift := 2
                              activationShift := 0, settleBand := 0, plateauSamples := 0, staleLimit := 1 } ∧
        t.scheduleEntry i = { enabled := false, minute := 0, days := 127, target := { kind := .edge, index := 0 },
                              value := .closure .opened }) ∧
      t.site.generation = 0 ∧ t.site.drain = none ∧
      t.site.state = (if bootld then .loading else .empty) ∧
      t.transfer = { state := if bootld then .readyWait else .idle
                     operation := if bootld then some .load else none
                     address := if bootld then some 0 else none
                     imageLength := none, check := 0, expected := 0, offset := 0, position := none
                     sent := if bootld then [.readStatus] else []
                     last := none } ∧
      (∀ i, t.closure i = .opened ∧ t.motion i = none ∧ t.gate i = .opened ∧ t.published i = .off) ∧
      t.conditions.edits = [] ∧ t.conditions.epoch = 0 ∧ t.conditions.turn = .idle ∧ t.conditions.timer = none ∧
      t.schedule.clockSet = false ∧ t.schedule.second = 0 ∧ t.schedule.day = 0 ∧ t.schedule.late = [] ∧
      (∀ i, t.channel i = { state := .off, level := .off, filter := 0, average := 0, activation := 0, debounce := 0,
                            plateau := 0, missed := 0, change := 0, lastCount := none }) ∧
      t.flow.timer = none ∧ t.flow.cycle = none ∧
      (∀ i, t.screen i = .idle) ∧ t.dispatcher.queue = [] ∧
      (∀ l, t.lane l = { state := .free, request := none, context := none, targets := [], labels := [], heap := [],
                         trimmed := false, egress := false, destClosed := false, clockUnset := false,
                         record := none }) ∧
      (∀ n, t.slot n = none) ∧ t.store.holders = [] ∧
      t.egress = { asserted := alarm, measuring := false, mode := if alarm then .egress else .normal
                   cause := if alarm then some .alarm else none } ∧
      t.link = { reception := .hunt, assembled := [], gapTimer := false, replies := [], sending := none
                 notices := [.start .powerOn], overrunMark := false, dropped := 0, startPending := true
                 resetKind := .powerOn, repeatTimer := false, softReset := false
                 parameters := { turnPeriod := 2, resultHold := 30, sampleInterval := 10, enables := 8191
                                 alertSource := .egress, alertPolarity := .activeHigh } } ∧
      t.txd = .high) ∧
  (∀ s : State, exec (.powerOnReset 0 false false) s = .next { State.reset with pending := s.pending }) ∧
  State.reset.pending = []

/-- While RESET is asserted the running part stops: ALERT is low, a running transfer is aborted with its last outcome kept,
CLDE is released, TXD idles high, and the straps are sampled. That TXD idles from the assertion on, that the rest stands, and
that no command but a release or a new assertion acts then, are the model's choice (notes/assumptions/20.md); so is what an
aborted unit holds (notes/assumptions/26.md). -/
def Obligations.AssertedResetStopsThePart : Prop :=
  (∀ (rate : BitVec 2) (bootld : Bool) (s : State),
    ∃ t, exec (.resetAsserted rate bootld) s = .next t ∧
      t.alert = false ∧ t.clde = false ∧ t.fcs = true ∧ t.txd = .high ∧ t.transfer.state = .idle ∧
      (s.transfer.state ≠ .idle → t.transfer.operation = none ∧ t.transfer.address = none) ∧
      (s.transfer.state = .idle → t.transfer = s.transfer) ∧
      t.transfer.last = s.transfer.last ∧
      t = { s with
        pins := { resetAsserted := true, rate := rate, bootld := bootld }
        transfer := t.transfer
        link := { s.link with sending := none } }) ∧
  ∀ (c : Instr) (s : State), s.pins.resetAsserted = true →
    (∀ rate bootld alarm, c ≠ .powerOnReset rate bootld alarm) → (∀ rate bootld, c ≠ .resetAsserted rate bootld) →
    exec c s = .next s

/-- SOFT RESET is answered OK, and from then on no frame is taken. -/
def Obligations.SoftResetIsTakenAndEndsReception : Prop :=
  (∀ s : State, s.Open →
    exec (.softReset []) s = .next { s with link := { s.link.answered 0x83 [0] with softReset := true } }) ∧
  ∀ (c : Instr) (s : State), c.wholeFrame ∨ (∃ bytes, c = .sync bytes) → s.link.softReset = true → exec c s = .next s

/-- The soft reset takes effect once its reply has left the queue: every block takes its soft reset values. That the row is
taken with an empty reply queue, the last byte of the reply being the event itself, is the model's reading
(notes/assumptions/11.md); that a WAITING turn is dropped on a return from DRAINING too is its choice
(notes/assumptions/28.md). -/
def Obligations.SoftResetTakesEffect : Prop :=
  ∀ s : State, s.Running → s.link.softReset = true → s.link.replies = [] →
    ∃ t, exec .softResetEffect s = .next t ∧
      t.site = { s.site with
        state := (if s.site.state = .loading then .invalid else if s.site.state = .draining then .valid else s.site.state)
        drain := none } ∧
      (s.transfer.state = .idle → t.transfer = s.transfer) ∧
      (s.transfer.state ≠ .idle → t.transfer.state = .idle ∧ t.transfer.operation = none) ∧
      t.transfer.last = s.transfer.last ∧
      t.conditions = { s.conditions with turn := .idle, timer := if t.site.state = .valid then some 2 else none } ∧
      t.flow = { s.flow with cycle := none, timer := if t.site.state = .valid then some 10 else none } ∧
      t.schedule = s.schedule ∧
      (∀ i, t.screen i = .idle) ∧ t.dispatcher.queue = [] ∧
      (∀ l, l < 4 → t.lane l = { state := .free, request := none, context := none, targets := []
                                 labels := (s.lane l).labels, heap := [], trimmed := false, egress := false
                                 destClosed := false, clockUnset := false, record := none }) ∧
      (∀ n, t.slot n = none) ∧ t.store.holders = [] ∧
      t.egress = { s.egress with mode := if s.egress.asserted then .egress else .normal
                                 cause := if s.egress.asserted then some .alarm else none } ∧
      t.link = { reception := .hunt, assembled := [], gapTimer := false, replies := [], sending := none
                 notices := [.start .soft], overrunMark := false, dropped := 0, startPending := true
                 resetKind := .soft, repeatTimer := false, softReset := false
                 parameters := { turnPeriod := 2, resultHold := 30, sampleInterval := 10, enables := 8191
                                 alertSource := .egress, alertPolarity := .activeHigh } } ∧
      t.pins = s.pins

/-- ALERT follows its source and polarity, and is low while RESET is asserted. -/
def Obligations.AlertFollowsItsSource : Prop :=
  (∀ s : State, s.pins.resetAsserted = true → s.alert = false) ∧
  ∀ s : State, s.Running →
    let p := s.link.parameters
    (p.alertSource = .fixedLow → s.alert = false) ∧
    (p.alertSource = .fixedHigh → s.alert = true) ∧
    (p.alertSource = .egress → (s.alert = true ↔ (s.egress.mode = .egress ↔ p.alertPolarity = .activeHigh))) ∧
    (p.alertSource = .anyCrowded →
      (s.alert = true ↔ ((∃ c, c < 64 ∧ s.published c = .crowded) ↔ p.alertPolarity = .activeHigh))) ∧
    (p.alertSource = .siteNotValid → (s.alert = true ↔ (s.site.state ≠ .valid ↔ p.alertPolarity = .activeHigh))) ∧
    (p.alertSource = .startPending →
      (s.alert = true ↔ (s.link.startPending = true ↔ p.alertPolarity = .activeHigh))) ∧
    (p.alertSource = .noticeBacklog →
      (s.alert = true ↔ (24 ≤ s.link.notices.length ↔ p.alertPolarity = .activeHigh)))

/-! ### Reception, replies and notices -/

/-- In HUNT the byte A5h begins a frame, and two length bytes, the kind byte and as many payload bytes as the length gives
take the receiver through LENGTH, KIND and PAYLOAD to CHECK; elsewhere A5h is a byte of the frame. The row SYNC carries the
bytes after A5h, up to the one with which the frame is judged, which is the model's choice (notes/assumptions/18.md). A frame
whose bytes do not sum to 0, of no request kind, too long, or broken off, is answered ERROR with its code, and the receiver
hunts again, after a length above 1024 at once, which is the model's reading (notes/assumptions/22.md); a late byte A5h begins
the next frame. -/
def Obligations.FramesBeginAndBadFramesAreAnsweredError : Prop :=
  (∀ s : State, s.Running → s.link.softReset = false →
    let taken (reception : Reception) (frame : List Byte) : State :=
      { s with link := { s.link with reception := reception, assembled := frame } }
    let begun (reception : Reception) (frame : List Byte) : State :=
      { s with link := { s.link with reception := reception, assembled := 0xA5 :: frame, gapTimer := true } }
    let stated (lo hi : Byte) : Nat := lo.toNat + 256 * hi.toNat
    (s.link.reception = .hunt →
      exec (.sync []) s = .next (begun .length []) ∧
      ∀ lo, exec (.sync [lo]) s = .next (begun .length [lo]) ∧
        ∀ hi,
          (∀ rest, 1024 < stated lo hi → exec (.sync (lo :: hi :: rest)) s = .next (begun .length [lo])) ∧
          (stated lo hi ≤ 1024 →
            exec (.sync [lo, hi]) s = .next (begun .kind [lo, hi]) ∧
            ∀ kind part rest,
              (part.length < stated lo hi →
                exec (.sync (lo :: hi :: kind :: part)) s = .next (begun .payload (lo :: hi :: kind :: part))) ∧
              (part.length = stated lo hi →
                exec (.sync (lo :: hi :: kind :: (part ++ rest))) s =
                  .next (begun .check (lo :: hi :: kind :: part))))) ∧
    (s.link.reception = .length →
      (s.link.assembled = [0xA5] → exec (.sync []) s = .next (taken .length [0xA5, 0xA5])) ∧
      ∀ lo bytes, s.link.assembled = [0xA5, lo] → exec (.sync bytes) s = .next s) ∧
    (∀ lo hi, s.link.reception = .kind → s.link.assembled = [0xA5, lo, hi] → ∀ part,
      (part.length < stated lo hi →
        exec (.sync part) s = .next (taken .payload (s.link.assembled ++ 0xA5 :: part))) ∧
      (part.length = stated lo hi →
        exec (.sync part) s = .next (taken .check (s.link.assembled ++ 0xA5 :: part)))) ∧
    (∀ lo hi kind before, s.link.reception = .payload → s.link.assembled = 0xA5 :: lo :: hi :: kind :: before → ∀ part,
      (before.length + 1 + part.length < stated lo hi →
        exec (.sync part) s = .next (taken .payload (s.link.assembled ++ 0xA5 :: part))) ∧
      (before.length + 1 + part.length = stated lo hi →
        exec (.sync part) s = .next (taken .check (s.link.assembled ++ 0xA5 :: part)))) ∧
    (∀ bytes, s.link.reception = .check → exec (.sync bytes) s = .next s)) ∧
  ∀ s : State, s.Open →
    (∀ bytes : List Byte, (bytes.map BitVec.toNat).sum % 256 ≠ 0 → exec (.badCheck bytes) s = .next (s.answers 0x80 [5])) ∧
    (∀ kind : Byte, kind = 0 ∨ 0x16 < kind.toNat → exec (.unknownKind kind) s = .next (s.answers 0x80 [8])) ∧
    (∀ length : BitVec 16, 1024 < length.toNat → exec (.badLength length) s = .next (s.answers 0x80 [6])) ∧
    (s.link.gapTimer = true →
      (∀ late : Option Byte, late ≠ some 0xA5 → exec (.frameTimeout late) s = .next (s.answers 0x80 [7])) ∧
      exec (.frameTimeout (some 0xA5)) s = .next { s with link :=
        { s.link.answered 0x80 [7] with reception := .length, assembled := [0xA5], gapTimer := true } })

/-- A reply queue of 7 entries or more takes no frame: the busy run at its end grows, stopping at 65535, or a run of 1 is
appended; after a broken-off frame a late byte A5h still begins the next one. That a frame too long or broken off counts as
judged here is the model's reading (notes/assumptions/22.md). -/
def Obligations.FullReplyQueueCountsBusyReplies : Prop :=
  ∀ s : State, s.Running → s.link.softReset = false → 7 ≤ s.link.replies.length →
    let busy : HostLink :=
      { s.link with
        reception := .hunt
        assembled := []
        gapTimer := false
        replies := match s.link.replies.getLast? with
          | some (.busyRun n) => s.link.replies.dropLast ++ [.busyRun (if n < 65535 then n + 1 else n)]
          | _ => s.link.replies ++ [.busyRun 1] }
    (∀ c : Instr,
      c.wholeFrame ∨ c = .linkBusy ∨
        (s.link.gapTimer = true ∧ ∃ late : Option Byte, late ≠ some 0xA5 ∧ c = .frameTimeout late) →
      exec c s = .next { s with link := busy }) ∧
    (s.link.gapTimer = true → exec (.frameTimeout (some 0xA5)) s = .next { s with link :=
      { busy with reception := .length, assembled := [0xA5], gapTimer := true } })

/-- Before ACK START every request but ACK START, STATUS, GET PARAM and SOFT RESET is answered NOT_STARTED, changing
nothing. -/
def Obligations.NotStartedBeforeAckStart : Prop :=
  ∀ (c : Instr) (kind : RequestKind) (payload : List Byte) (s : State),
    c.requestOf = some (kind, payload) → s.Open → s.link.startPending = true → kind.lengthAllowed payload = true →
    kind ≠ .ackStart → kind ≠ .status → kind ≠ .getParam → kind ≠ .softReset →
    exec c s = .next (s.answers (BitVec.ofNat 8 (0x80 + kind.code)) [9])

/-- A request whose payload length its layout does not allow is answered BAD_LENGTH of its kind and changes nothing; the
lengths are those of the layouts. A payload above 1024 bytes is answered ERROR, whatever the kind. That a TABLE WRITE of 1 or
2 bytes whose table byte names no table is among those refused is the model's choice (notes/assumptions/30.md). -/
def Obligations.WrongPayloadLengthIsRefused : Prop :=
  (∀ (c : Instr) (kind : RequestKind) (payload : List Byte) (s : State),
    c.requestOf = some (kind, payload) → s.Open →
    (payload.length ≤ 1024 → kind.lengthAllowed payload = false →
      exec c s = .next (s.answers (BitVec.ofNat 8 (0x80 + kind.code)) [6])) ∧
    (1024 < payload.length → exec c s = .next (s.answers 0x80 [6]))) ∧
  ∀ payload : List Byte,
    (∀ kind ∈ [RequestKind.ackStart, .status, .softReset, .siteOpen, .siteClose, .turnNow, .egressEnter, .egressResume],
      kind.lengthAllowed payload = true ↔ payload.length = 0) ∧
    (∀ kind ∈ [RequestKind.getParam, .cancel, .collect, .screenState, .flowRead],
      kind.lengthAllowed payload = true ↔ payload.length = 1) ∧
    (∀ kind ∈ [RequestKind.setParam, .conditionRead], kind.lengthAllowed payload = true ↔ payload.length = 3) ∧
    (∀ kind ∈ [RequestKind.siteLoad, .siteDump, .condition],
      kind.lengthAllowed payload = true ↔ payload.length = 4) ∧
    (∀ kind ∈ [RequestKind.tableRead, .setClock], kind.lengthAllowed payload = true ↔ payload.length = 5) ∧
    (RequestKind.route.lengthAllowed payload = true ↔ payload.length = 7) ∧
    (RequestKind.tableWrite.lengthAllowed payload = true ↔
      3 ≤ payload.length ∧ payload.length ≤ 1024 ∧
        ∀ t, TableId.ofCode (byteAt payload 0) = some t → (payload.length - 3) % t.recordBytes = 0)

/-- At a frame boundary the front reply goes, one at a time from a busy run; otherwise the head notice, but not between a
SOFT RESET and its reply; otherwise nothing. A START sent while the flag is set starts the repeat timer.
An entry leaves its queue when its
sending begins (notes/assumptions/11.md). -/
def Obligations.FrameBoundarySendsRepliesFirst : Prop :=
  ∀ s : State, s.Running →
    let timer := s.link.repeatTimer || (s.link.startPending && decide (s.link.sending.map Frame.kind = some 0xC0))
    (∀ f rest, s.link.replies = .reply f :: rest →
      exec .frameBoundary s = .next { s with link :=
        { s.link with repeatTimer := timer, replies := rest, sending := some f } }) ∧
    (∀ n rest, s.link.replies = .busyRun n :: rest →
      exec .frameBoundary s = .next { s with link :=
        { s.link with
          repeatTimer := timer
          replies := if n ≤ 1 then rest else .busyRun (n - 1) :: rest
          sending := some { kind := 0x80, payload := [26] } } }) ∧
    (s.link.replies = [] → (s.link.notices = [] ∨ s.link.softReset = true) →
      exec .frameBoundary s = .next { s with link := { s.link with repeatTimer := timer, sending := none } }) ∧
    (∀ n rest, s.link.replies = [] → s.link.softReset = false → s.link.notices = n :: rest →
      s.link.overrunMark = false →
      exec .frameBoundary s = .next { s with link :=
        { s.link with repeatTimer := timer, notices := rest, sending := some n.frame } })

/-- When the head notice leaves while the overrun mark is set, an OVERRUN with the dropped count is appended, or added to
the one that is queued, or, its kind disabled, nothing is offered; the mark and the count are cleared. -/
def Obligations.OverrunIsOfferedWhenRoomAppears : Prop :=
  ∀ (s : State) (n : Notice) (rest : List Notice), s.Running → s.link.replies = [] → s.link.softReset = false →
    s.link.notices = n :: rest → rest.length < 48 → s.link.overrunMark = true →
    ∃ t, exec .frameBoundary s = .next t ∧
      t.link.sending = some n.frame ∧ t.link.overrunMark = false ∧ t.link.dropped = 0 ∧
      (s.link.parameters.enables.getLsbD 12 = false → t.link.notices = rest) ∧
      (s.link.parameters.enables.getLsbD 12 = true → (∀ m ∈ rest, m.number ≠ 12) →
        t.link.notices = rest ++ [.overrun s.link.dropped]) ∧
      (s.link.parameters.enables.getLsbD 12 = true → ∀ before count after, rest = before ++ .overrun count :: after →
        (∀ m ∈ before ++ after, m.number ≠ 12) →
        t.link.notices = before ++ .overrun (min (count + s.link.dropped) 255) :: after) ∧
      t = { s with link := { s.link with sending := t.link.sending, notices := t.link.notices,
                                         overrunMark := false, dropped := 0, repeatTimer := t.link.repeatTimer } }

/-- A notice offered: not queued when its kind is disabled; in the place of a queued one of its kind and subject; at the
end while there is room; and otherwise dropped, with the overrun mark set and the count raised, stopping at 255. -/
def Obligations.NoticesAreQueuedByKindAndSubject : Prop :=
  ∀ (k : HostLink) (n : Notice),
    (k.parameters.enables.getLsbD n.number = false → k.offer n = k) ∧
    (k.parameters.enables.getLsbD n.number = true →
      (∀ m ∈ k.notices, ¬(m.number = n.number ∧ m.subject = n.subject)) →
      (k.notices.length < 48 → k.offer n = { k with notices := k.notices ++ [n] }) ∧
      (48 ≤ k.notices.length → k.offer n = { k with overrunMark := true, dropped := min (k.dropped + 1) 255 })) ∧
    (k.parameters.enables.getLsbD n.number = true → ∀ before m after, k.notices = before ++ m :: after →
      m.number = n.number → m.subject = n.subject →
      (∀ x ∈ before ++ after, ¬(x.number = n.number ∧ x.subject = n.subject)) →
      k.offer n = { k with notices := before ++
        (match m, n with
          | .overrun a, .overrun b => .overrun (min (a + b) 255)
          | _, _ => n) :: after })

/-- ACK START clears the flag, stops the repeat timer and removes an unsent START, whose leaving is an entry's leaving: with
the overrun mark set OVERRUN takes the room. With the flag clear it is answered ALREADY. While the flag is set the repeat
timer's expiry offers START again. -/
def Obligations.AckStartEndsTheStart : Prop :=
  (∀ s : State, s.Open → s.link.startPending = false → exec (.ackStart []) s = .next (s.answers 0x81 [3])) ∧
  (∀ s : State, s.Open → s.link.startPending = true →
    ∃ t, exec (.ackStart []) s = .next t ∧
      t.link.startPending = false ∧ t.link.repeatTimer = false ∧
      (∀ n ∈ t.link.notices, n.number ≠ 0) ∧
      (s.link.overrunMark = false → t.link.notices = s.link.notices.filter fun n => n.number ≠ 0) ∧
      (s.link.overrunMark = false ∨ (∀ n ∈ s.link.notices, n.number ≠ 0) →
        t.link.notices = (s.link.notices.filter fun n => n.number ≠ 0) ∧
        t.link.overrunMark = s.link.overrunMark ∧ t.link.dropped = s.link.dropped) ∧
      (∀ start ∈ s.link.notices, start.number = 0 → s.link.overrunMark = true → s.link.notices.length ≤ 48 →
        let rest := s.link.notices.filter fun n => n.number ≠ 0
        t.link.overrunMark = false ∧ t.link.dropped = 0 ∧
        (s.link.parameters.enables.getLsbD 12 = false → t.link.notices = rest) ∧
        (s.link.parameters.enables.getLsbD 12 = true → (∀ m ∈ rest, m.number ≠ 12) →
          t.link.notices = rest ++ [.overrun s.link.dropped]) ∧
        (s.link.parameters.enables.getLsbD 12 = true → ∀ before count after, rest = before ++ .overrun count :: after →
          (∀ m ∈ before ++ after, m.number ≠ 12) →
          t.link.notices = before ++ .overrun (min (count + s.link.dropped) 255) :: after)) ∧
      t = { s with link := { s.link.answered 0x81 [0] with
              startPending := false, repeatTimer := false, notices := t.link.notices
              overrunMark := t.link.overrunMark, dropped := t.link.dropped } }) ∧
  ∀ s : State, s.Running → s.link.repeatTimer = true → s.link.startPending = true →
    exec .startRepeatTimerExpiry s =
      .next { s with link := HostLink.offer (.start s.link.resetKind) { s.link with repeatTimer := false } }

/-! ### Reports and parameters -/

/-- STATUS, GET PARAM, TABLE READ, CONDITION READ, SCREEN STATE and FLOW READ change nothing but the reply queue. -/
def Obligations.ReportsChangeNothing : Prop :=
  ∀ (c : Instr) (kind : RequestKind) (payload : List Byte) (s : State),
    c.requestOf = some (kind, payload) →
    kind ∈ [RequestKind.status, .getParam, .tableRead, .conditionRead, .screenState, .flowRead] →
    kind.lengthAllowed payload = true → s.Open →
    s.link.startPending = false ∨ kind = .status ∨ kind = .getParam →
    ∃ data, exec c s = .next (s.answers (BitVec.ofNat 8 (0x80 + kind.code)) data)

/-- STATUS is answered with 46 bytes that report the part as it stands, each field at its place.
That in IDLE the byte offset is FFFFFFFFh and the operation is the last transfer's, that the last outcome is FFh while a
transfer runs (notes/assumptions/12.md), that a set flag is 1 (notes/assumptions/2.md), and the codes of the clock, of the
filtered level, of the cause and of the outcomes (notes/assumptions/16.md) are the model's readings. -/
def Obligations.StatusReportsThePart : Prop :=
  ∀ s : State, s.Open → ∃ d, exec (.status []) s = .next (s.answers 0x82 (0 :: d)) ∧ d.length = 46 ∧
    byteAt d 0 = (if s.link.startPending then 1 else 0) ∧
    byteAt d 1 = (match s.link.resetKind with | .powerOn => 0 | .soft => 1) ∧
    byteAt d 2 = (match s.site.state with
      | .empty => 0 | .loading => 1 | .valid => 2 | .draining => 3 | .editing => 4 | .invalid => 5) ∧
    wordAt d 3 = s.site.generation.toNat ∧
    byteAt d 5 = (match s.transfer.state with
      | .idle => 0 | .readyWait => 1 | .readHeader => 2 | .readTables => 3 | .validate => 4 | .erase => 5
      | .program => 6) ∧
    byteAt d 6 = (match (if s.transfer.state = .idle then s.transfer.last.map Prod.fst else s.transfer.operation) with
      | some .load => 0 | some .dump => 1 | none => 255) ∧
    longAt d 7 = (if s.transfer.state = .idle then 4294967295 else s.transfer.offset % 4294967296) ∧
    (s.transfer.state ≠ .idle → byteAt d 11 = 255) ∧
    (s.transfer.state = .idle → byteAt d 11 = (match s.transfer.last with
      | none => 255
      | some (_, .valid) => 0
      | some (_, .badHeader _) => 1
      | some (_, .badRecord _ _) => 2
      | some (_, .checkMismatch _ _) => 3
      | some (_, .invalid _) => 4
      | some (.load, .flashTimeout _ _) => 5
      | some (_, .written) => 0
      | some (.dump, .flashTimeout _ _) => 1)) ∧
    byteAt d 12 = (match s.egress.mode with | .normal => 0 | .egress => 1) ∧
    byteAt d 13 = (match s.egress.cause with | some .alarm => 0 | some .drill => 1 | none => 255) ∧
    byteAt d 14 = (if s.egress.asserted then 0 else 1) ∧
    wordAt d 15 = s.conditions.epoch.toNat ∧
    byteAt d 17 = (match s.conditions.turn with | .idle => 0 | .waiting _ => 1) ∧
    byteAt d 18 = s.conditions.edits.length % 256 ∧
    byteAt d 19 = (if s.schedule.clockSet then 0 else 1) ∧
    longAt d 20 = s.schedule.second % 4294967296 ∧
    byteAt d 24 = s.schedule.day % 256 ∧
    byteAt d 25 = s.schedule.late.length % 256 ∧
    (∀ l, l < 4 →
      byteAt d (26 + 2 * l) = (match (s.lane l).state with | .free => 0 | .searching => 1 | .holding => 2) ∧
      byteAt d (27 + 2 * l) = (match (s.lane l).request with | some r => r.screen % 256 | none => 255)) ∧
    byteAt d 34 = ((List.range 48).filter fun n => (s.slot n).isSome).length ∧
    (∀ i, i < 4 → byteAt d (35 + i) = (match s.store.holders[i]? with | some l => l % 256 | none => 255)) ∧
    byteAt d 39 = s.dispatcher.queue.length % 256 ∧
    (∀ k, k < 4 → byteAt d (40 + k) = ((List.range 64).filter fun i => (s.screen i).code = k).length) ∧
    byteAt d 44 = s.link.notices.length % 256 ∧
    byteAt d 45 = (if s.link.overrunMark then 1 else 0)

/-- SET PARAM clamps the times, keeps the START enable, refuses a code of no source or polarity and an unknown number, and
answers the value stored; nothing else changes.
Of the enables word the
thirteen enables are kept (notes/assumptions/15.md). -/
def Obligations.SetParamStoresWithinRange : Prop :=
  ∀ (s : State) (v : Nat), s.Started → v < 65536 →
    let stored (number value : Nat) (p : Parameters) : State :=
      { s with link := { s.link.answered 0x84 (0 :: (le8 number ++ le16 value)) with parameters := p } }
    exec (.setParam (le8 1 ++ le16 v)) s =
      .next (stored 1 (max 1 (min v 60)) { s.link.parameters with turnPeriod := max 1 (min v 60) }) ∧
    exec (.setParam (le8 2 ++ le16 v)) s =
      .next (stored 2 (max 5 (min v 300)) { s.link.parameters with resultHold := max 5 (min v 300) }) ∧
    exec (.setParam (le8 3 ++ le16 v)) s =
      .next (stored 3 (max 5 (min v 60)) { s.link.parameters with sampleInterval := max 5 (min v 60) }) ∧
    (∃ enables : BitVec 13, enables.getLsbD 0 = true ∧
      (∀ n, 1 ≤ n → n < 13 → enables.getLsbD n = v.testBit n) ∧
      exec (.setParam (le8 4 ++ le16 v)) s =
        .next (stored 4 enables.toNat { s.link.parameters with enables := enables })) ∧
    (∀ source, [AlertSource.egress, .anyCrowded, .siteNotValid, .startPending, .noticeBacklog, .fixedLow,
                .fixedHigh][v]? = some source →
      exec (.setParam (le8 5 ++ le16 v)) s =
        .next (stored 5 v { s.link.parameters with alertSource := source })) ∧
    (7 ≤ v → exec (.setParam (le8 5 ++ le16 v)) s = .next (s.answers 0x84 [21])) ∧
    (∀ polarity, [AlertPolarity.activeHigh, .activeLow][v]? = some polarity →
      exec (.setParam (le8 6 ++ le16 v)) s =
        .next (stored 6 v { s.link.parameters with alertPolarity := polarity })) ∧
    (2 ≤ v → exec (.setParam (le8 6 ++ le16 v)) s = .next (s.answers 0x84 [21])) ∧
    (∀ number, number = 0 ∨ 6 < number → number < 256 →
      exec (.setParam (le8 number ++ le16 v)) s = .next (s.answers 0x84 [19]))

/-- GET PARAM answers the number and the value held, also before ACK START. -/
def Obligations.GetParamReportsTheValueHeld : Prop :=
  ∀ s : State, s.Open →
    let p := s.link.parameters
    let answer (number value : Nat) : State := s.answers 0x85 (0 :: (le8 number ++ le16 value))
    exec (.getParam [1]) s = .next (answer 1 p.turnPeriod) ∧
    exec (.getParam [2]) s = .next (answer 2 p.resultHold) ∧
    exec (.getParam [3]) s = .next (answer 3 p.sampleInterval) ∧
    exec (.getParam [4]) s = .next (answer 4 p.enables.toNat) ∧
    exec (.getParam [5]) s = .next (answer 5 (match p.alertSource with
      | .egress => 0 | .anyCrowded => 1 | .siteNotValid => 2 | .startPending => 3 | .noticeBacklog => 4 | .fixedLow => 5
      | .fixedHigh => 6)) ∧
    exec (.getParam [6]) s = .next (answer 6 (match p.alertPolarity with | .activeHigh => 0 | .activeLow => 1)) ∧
    ∀ number : Byte, number = 0 ∨ 6 < number.toNat → exec (.getParam [number]) s = .next (s.answers 0x85 [19])

/-- SCREEN STATE and FLOW READ answer the fields of their reports; a screen or a channel of 64 or more is refused.
A set
mark is sent as 1 (notes/assumptions/2.md). -/
def Obligations.ScreenAndFlowReports : Prop :=
  ∀ s : State, s.Started →
    (∀ i : Byte, 64 ≤ i.toNat → exec (.screenState [i]) s = .next (s.answers 0x93 [12]) ∧
      exec (.flowRead [i]) s = .next (s.answers 0x94 [20])) ∧
    (∀ i : Byte, i.toNat < 64 →
      (s.screen i.toNat = .idle → exec (.screenState [i]) s =
        .next (s.answers 0x93 [0, 0, 0xFF, 0xFF, 0xFF, 0xFF, 0xFF, 0xFF, 0xFF, 0xFF, 0xFF])) ∧
      (∀ before e after, s.screen i.toNat = .queued → s.dispatcher.queue = before ++ e :: after →
        e.request.screen = i.toNat → (∀ x ∈ before, x.request.screen ≠ i.toNat) →
        exec (.screenState [i]) s = .next (s.answers 0x93 (([0, 1] : List Byte) ++ le16 e.request.tag ++ le8 (before.length + 1) ++
          le8 e.request.passes ++ le8 (if s.egress.mode = .egress ∨ e.request.assist = true ∨ 8 ≤ e.request.passes then 3
            else (s.screenRecord e.request.screen).priority) ++ le8 (if e.egressMark then 1 else 0) ++ ([0xFF, 0xFF, 0xFF] : List Byte)))) ∧
      (∀ l r, s.screen i.toNat = .active l → (s.lane l).request = some r →
        exec (.screenState [i]) s = .next (s.answers 0x93 (([0, 2] : List Byte) ++ le16 r.tag ++ ([0xFF, 0xFF, 0xFF, 0xFF] : List Byte) ++ le8 l ++
          le8 (match (s.lane l).state with | .free => 0 | .searching => 1 | .holding => 2) ++ ([0xFF] : List Byte)))) ∧
      (∀ n held, s.screen i.toNat = .ready n → s.slot n = some held →
        exec (.screenState [i]) s = .next (s.answers 0x93 (([0, 3] : List Byte) ++ le16 held.record.tag ++
          ([0xFF, 0xFF, 0xFF, 0xFF, 0xFF, 0xFF] : List Byte) ++ le8 n))) ∧
      exec (.flowRead [i]) s = .next (s.answers 0x94 (
        let ch := s.channel i.toNat
        ([0] : List Byte) ++ le8 (match ch.state with | .off => 0 | .seeding => 1 | .tracking => 2 | .stale => 3) ++
        le8 (match ch.level with | .clear => 0 | .busy => 1 | .crowded => 2 | .unknown => 3 | .off => 4) ++
        le8 (match s.published i.toNat with | .clear => 0 | .busy => 1 | .crowded => 2 | .unknown => 3 | .off => 4) ++
        leInt16 ch.filter ++ leInt16 ch.average ++ leInt16 ch.activation ++ le8 ch.debounce ++ le8 ch.plateau ++
        le8 ch.missed ++ leInt16 ch.change ++ le16 (match ch.lastCount with | some n => n | none => 0xFFFF))))

/-! ### The site tables -/

/-- A record in range, written as bytes and read back, is the record, and its bytes have its table's record size. The words
of each of the twelve records are written out in their order, with the word of zeros that fills some of them; so is what each
record's ranges ask. Bytes stand for exactly the record in range whose fields have these words; fill bytes are ignored. That a
set flag is 1 (notes/assumptions/2.md) and the codes that stand in the order of a field's own list (notes/assumptions/16.md)
are the model's readings. -/
def Obligations.RecordsRoundTrip : Prop :=
  (∀ r : Record, r.inRange = true →
    Record.ofBytes r.table r.bytes = some r ∧ r.bytes.length = r.table.recordBytes) ∧
  (∀ (table : TableId) (bytes : List Byte) (r : Record), Record.ofBytes table bytes = some r ↔
    r.table = table ∧ r.inRange = true ∧ ∀ i,
      i < (match table with
        | .header => 11 | .nodes => 4 | .edges => 10 | .adjacency => 1 | .groups => 3 | .members => 2 | .directory => 4
        | .gates => 1 | .profiles => 5 | .screens => 5 | .channels => 15 | .schedule => 6) →
      wordAt bytes (2 * i) = wordAt r.bytes (2 * i)) ∧
  let words (l : List Nat) : List Byte := l.flatMap fun w => [BitVec.ofNat 8 w, BitVec.ofNat 8 (w / 256)]
  let optional (o : Option Nat) : Nat := match o with | some n => n | none => 65535
  let flag (b : Bool) (worth : Nat) : Nat := if b then worth else 0
  let closure (c : Closure) : Nat := match c with | .opened => 0 | .closed => 1
  let within (o : Option Nat) (bound : Nat) : Prop := ∀ n, o = some n → n < bound
  (∀ h : Header,
    (Record.header h).bytes = words [h.nodeCount, h.edgeCount, h.adjacencyCount, h.groupCount, h.memberCount,
      h.directoryCount, h.scheduleCount, h.exitGroup, h.fBusy, h.fCrowded, h.fUnknown, 0] ∧
    ((Record.header h).inRange = true ↔
      h.nodeCount ≤ 2048 ∧ h.edgeCount ≤ 4096 ∧ h.adjacencyCount ≤ 8192 ∧ h.groupCount ≤ 256 ∧ h.memberCount ≤ 2048 ∧
        h.directoryCount ≤ 1024 ∧ h.scheduleCount ≤ 128 ∧ h.exitGroup ≤ 255 ∧ 16 ≤ h.fBusy ∧ h.fBusy ≤ 255 ∧
        16 ≤ h.fCrowded ∧ h.fCrowded ≤ 255 ∧ 16 ≤ h.fUnknown ∧ h.fUnknown ≤ 255)) ∧
  (∀ n : Node,
    (Record.node n).bytes = words [n.floor, optional n.landmark, n.adjacencyStart, n.adjacencyCount] ∧
    ((Record.node n).inRange = true ↔
      n.floor ≤ 15 ∧ within n.landmark 1024 ∧ n.adjacencyStart ≤ 8191 ∧ n.adjacencyCount ≤ 8)) ∧
  (∀ e : Edge,
    (Record.edge e).bytes = words [e.a, e.b,
      match e.cls with
        | .walk => 0 | .door => 1 | .stairs => 2 | .escalator => 3 | .travelator => 4 | .elevator => 5,
      e.length,
      match e.heading with | some n => n | none => 8,
      match e.direction with | .runAB => 0 | .runBA => 1 | .stopped => 2 | .both => 3,
      e.rideCode, optional e.gate, optional e.channel, flag e.closedByDefault 1] ∧
    ((Record.edge e).inRange = true ↔
      e.a ≤ 2047 ∧ e.b ≤ 2047 ∧ e.length ≤ 4095 ∧ within e.heading 8 ∧ e.rideCode ≤ 15 ∧ within e.gate 64 ∧
        within e.channel 64)) ∧
  (∀ edge : Nat,
    (Record.adjacency edge).bytes = words [edge, 0] ∧ ((Record.adjacency edge).inRange = true ↔ edge ≤ 4095)) ∧
  (∀ g : Group,
    (Record.group g).bytes =
      words [match g.selection with | .nearest => 0 | .firstOpen => 1, g.memberStart, g.memberCount, 0] ∧
    ((Record.group g).inRange = true ↔ g.memberStart ≤ 2047 ∧ 1 ≤ g.memberCount ∧ g.memberCount ≤ 16)) ∧
  (∀ m : Member,
    (Record.member m).bytes = words [m.node, optional m.gate] ∧
    ((Record.member m).inRange = true ↔ m.node ≤ 2047 ∧ within m.gate 64)) ∧
  (∀ d : DirectoryEntry,
    (Record.directory d).bytes =
      words [match d.kind with | .unused => 0 | .direct => 1 | .group => 2, d.ref, d.category, optional d.ownGate] ∧
    ((Record.directory d).inRange = true ↔
      d.ref ≤ 2047 ∧ (d.kind = .group → d.ref ≤ 255) ∧ d.category ≤ 63 ∧ within d.ownGate 64)) ∧
  (∀ c : Closure, (Record.gate c).bytes = words [closure c, 0] ∧ (Record.gate c).inRange = true) ∧
  (∀ p : Profile,
    (Record.profile p).bytes = words [p.pace,
      flag p.stairs 1 + flag p.escalator 2 + flag p.travelator 4 + flag p.elevator 8, p.stairFactor, p.liftWait,
      p.aversion, 0] ∧
    ((Record.profile p).inRange = true ↔
      40 ≤ p.pace ∧ p.pace ≤ 200 ∧ 16 ≤ p.stairFactor ∧ p.stairFactor ≤ 64 ∧ p.liftWait ≤ 1200 ∧ p.aversion ≤ 4)) ∧
  (∀ s : Screen,
    (Record.screen s).bytes = words [flag s.enabled 1, s.node, s.facing, s.profile, s.priority, 0] ∧
    ((Record.screen s).inRange = true ↔ s.node ≤ 2047 ∧ s.facing ≤ 7 ∧ s.profile ≤ 7 ∧ s.priority ≤ 3)) ∧
  (∀ c : ChannelConfig,
    (Record.channel c).bytes = words [flag c.enabled 1,
      match c.role with | .independent => 0 | .reference => 1 | .follower => 2,
      c.reference, c.weight, c.busy, c.crowded, c.hysteresis, c.ceiling, c.debounce, c.filterShift, c.averageShift,
      c.activationShift, c.settleBand, c.plateauSamples, c.staleLimit, 0] ∧
    ((Record.channel c).inRange = true ↔
      c.reference ≤ 63 ∧ c.weight ≤ 8191 ∧ 1 ≤ c.busy ∧ c.busy ≤ 1023 ∧ c.busy ≤ c.crowded ∧ c.crowded ≤ 1023 ∧
        c.hysteresis ≤ c.busy - 1 ∧ 1 ≤ c.ceiling ∧ c.ceiling ≤ 1023 ∧ 1 ≤ c.debounce ∧ c.debounce ≤ 8 ∧
        c.filterShift ≤ 7 ∧ 2 ≤ c.averageShift ∧ c.averageShift ≤ 12 ∧ c.activationShift ≤ 7 ∧ c.settleBand ≤ 255 ∧
        c.plateauSamples ≤ 255 ∧ 1 ≤ c.staleLimit ∧ c.staleLimit ≤ 15)) ∧
  ∀ e : ScheduleEntry,
    (Record.schedule e).bytes = words [flag e.enabled 1, e.minute,
      ((List.range 7).map fun d => flag (e.days.getLsbD d) (2 ^ d)).sum,
      match e.target.kind with | .edge => 0 | .motion => 1 | .gate => 2,
      e.target.index,
      match e.value with
        | .closure c => closure c
        | .motion .runAB => 0
        | .motion .runBA => 1
        | .motion .stopped => 2] ∧
    ((Record.schedule e).inRange = true ↔
      e.minute ≤ 1439 ∧ (∃ d, d < 7 ∧ e.days.getLsbD d = true) ∧
        (e.target.kind = .edge ∨ e.target.kind = .motion → e.target.index ≤ 4095) ∧
        (e.target.kind = .gate → e.target.index ≤ 63) ∧
        (e.target.kind = .motion → ∃ m, e.value = .motion m) ∧
        (e.target.kind ≠ .motion → ∃ c, e.value = .closure c))

/-- TABLE READ answers the records as the Site Store holds them, and is refused in LOADING, for an unknown table, for
records beyond the table, and for a number of 0 or one whose records do not fit a reply.
That the checks are
made in the order in which the rule names them is the model's reading (notes/assumptions/22.md). -/
def Obligations.TableReadAnswersTheRecords : Prop :=
  ∀ (s : State) (table first count : Nat), s.Started → table < 256 → first < 65536 → count < 65536 →
    let answer (data : List Byte) := s.answers 0x89 data
    let c := Instr.tableRead (le8 table ++ le16 first ++ le16 count)
    (s.site.state = .loading → exec c s = .next (answer [11])) ∧
    (s.site.state ≠ .loading → 12 ≤ table → exec c s = .next (answer [19])) ∧
    (s.site.state ≠ .loading → ∀ t, TableId.ofCode table = some t →
      (t.capacity ≤ first ∨ t.capacity < first + count → exec c s = .next (answer [20])) ∧
      (first < t.capacity → first + count ≤ t.capacity →
        (count = 0 ∨ 1024 < 1 + count * t.recordBytes → exec c s = .next (answer [21])) ∧
        (0 < count → 1 + count * t.recordBytes ≤ 1024 →
          exec c s = .next (answer (0 :: (List.range count).flatMap fun i => (s.site.record t (first + i)).bytes)))))

/-- An accepted TABLE WRITE replaces each addressed record by the one given and no other; nothing else of the part
changes but the reply. -/
def Obligations.TableWriteReplacesTheRecords : Prop :=
  ∀ (s : State) (t : TableId) (first : Nat) (records : List Record), s.Started → s.site.Canonical →
    s.site.state = .editing ∨ s.site.state = .invalid →
    (∀ r ∈ records, r.table = t ∧ r.inRange = true) → first < t.capacity → first + records.length ≤ t.capacity →
    3 + records.length * t.recordBytes ≤ 1024 →
    ∃ u, exec (.tableWrite (le8 t.code ++ le16 first ++ records.flatMap Record.bytes)) s = .next u ∧
      (∀ t' i, i < t'.capacity →
        (t' = t → ∀ r, first ≤ i → records[i - first]? = some r → u.site.record t' i = r) ∧
        (t' ≠ t ∨ i < first ∨ first + records.length ≤ i → u.site.record t' i = s.site.record t' i)) ∧
      u.site.state = s.site.state ∧ u.site.generation = s.site.generation ∧ u.site.drain = s.site.drain ∧
      u = { s.answers 0x88 [0] with site := u.site }

/-- A refused TABLE WRITE writes nothing: outside EDITING and INVALID, to no table, beyond the table, or with one record
out of range. -/
def Obligations.TableWriteRefusalsWriteNothing : Prop :=
  ∀ (s : State) (table first : Nat) (bytes : List Byte), s.Started → table < 256 → first < 65536 →
    let c := Instr.tableWrite (le8 table ++ le16 first ++ bytes)
    RequestKind.tableWrite.lengthAllowed (le8 table ++ le16 first ++ bytes) = true →
    (s.site.state ≠ .editing → s.site.state ≠ .invalid → exec c s = .next (s.answers 0x88 [11])) ∧
    (s.site.state = .editing ∨ s.site.state = .invalid →
      (12 ≤ table → exec c s = .next (s.answers 0x88 [19])) ∧
      ∀ t, TableId.ofCode table = some t →
        (t.capacity ≤ first ∨ t.capacity < first + bytes.length / t.recordBytes →
          exec c s = .next (s.answers 0x88 [20])) ∧
        (first < t.capacity → first + bytes.length / t.recordBytes ≤ t.capacity →
          (∃ i, i < bytes.length / t.recordBytes ∧
            Record.ofBytes t ((bytes.drop (i * t.recordBytes)).take t.recordBytes) = none) →
          exec c s = .next (s.answers 0x88 [21])))

/-- SITE OPEN, past its checks: EDITING from EMPTY and INVALID; OK without effect in EDITING; from VALID the queue is
dropped, and the site is EDITING, or DRAINING while a lane is SEARCHING; refused in DRAINING. -/
def Obligations.SiteOpenOpensOrDrains : Prop :=
  ∀ s : State, s.Started → s.Canonical →
    (s.transfer.state ≠ .idle → exec (.siteOpen []) s = .next (s.answers 0x86 [23])) ∧
    (s.transfer.state = .idle → s.egress.mode = .egress → exec (.siteOpen []) s = .next (s.answers 0x86 [24])) ∧
    (s.transfer.state = .idle → s.egress.mode = .normal →
      let edited (u : State) (notices : List Notice) : State :=
        { s with
          site := { s.site with state := .editing }
          conditions := { s.conditions with timer := none }
          flow := { s.flow with timer := none, cycle := none }
          dispatcher := u.dispatcher
          link := (s.link.offerAll (notices ++
            [.siteState .editing s.site.generation .openSession])).answered 0x86 [0] }
      let dropped := s.dispatcher.queue.map fun e => Notice.requestDropped e.request.screen e.request.tag .site
      (s.site.state = .empty ∨ s.site.state = .invalid → exec (.siteOpen []) s = .next (edited s [])) ∧
      (s.site.state = .editing → exec (.siteOpen []) s = .next (s.answers 0x86 [0])) ∧
      (s.site.state = .draining → exec (.siteOpen []) s = .next (s.answers 0x86 [11])) ∧
      (s.site.state = .valid → ∃ u, exec (.siteOpen []) s = .next u ∧
        u.dispatcher.queue = [] ∧
        (∀ e ∈ s.dispatcher.queue, u.screen e.request.screen = .idle) ∧
        (∀ i, (∀ e ∈ s.dispatcher.queue, e.request.screen ≠ i) → u.screen i = s.screen i) ∧
        (¬ s.Searching → u = edited u dropped) ∧
        (s.Searching → u = { s with
          site := { s.site with state := .draining, drain := some .openSession }
          flow := { s.flow with timer := none, cycle := none }
          dispatcher := u.dispatcher
          conditions := s.conditions
          link := (s.link.offerAll (dropped ++
            [.siteState .draining s.site.generation .openSession])).answered 0x86 [0] })))

/-- SITE LOAD: refused when its header does not fit the flash, while a transfer runs, in EGRESS and in DRAINING; otherwise
the load starts, at once or after the drain, from VALID with the queue dropped. -/
def Obligations.SiteLoadStartsOrWaits : Prop :=
  ∀ (s : State) (address : Nat), s.Started → s.Canonical → address < 4294967296 →
    let c := Instr.siteLoad (le32 address)
    (16777216 < address + 32 → exec c s = .next (s.answers 0x8A [22])) ∧
    (address + 32 ≤ 16777216 →
      (s.transfer.state ≠ .idle → exec c s = .next (s.answers 0x8A [23])) ∧
      (s.transfer.state = .idle → s.egress.mode = .egress → exec c s = .next (s.answers 0x8A [24])) ∧
      (s.transfer.state = .idle → s.egress.mode = .normal →
        let loading (u : State) (notices : List Notice) : State :=
          { s with
            site := { s.site with state := .loading }
            transfer := { state := .readyWait, operation := some .load, address := some address, imageLength := none
                          check := 0, expected := 0, offset := 0, position := none, sent := [.readStatus]
                          last := s.transfer.last }
            conditions := { s.conditions with timer := none }
            flow := { s.flow with timer := none, cycle := none }
            dispatcher := u.dispatcher
            link := (s.link.offerAll (notices ++ [.siteState .loading s.site.generation .load])).answered 0x8A [0] }
        let dropped := s.dispatcher.queue.map fun e => Notice.requestDropped e.request.screen e.request.tag .site
        (s.site.state = .draining → exec c s = .next (s.answers 0x8A [11])) ∧
        (s.site.state = .empty ∨ s.site.state = .invalid ∨ s.site.state = .editing →
          exec c s = .next (loading s [])) ∧
        (s.site.state = .valid → ∃ u, exec c s = .next u ∧
          u.dispatcher.queue = [] ∧
          (∀ e ∈ s.dispatcher.queue, u.screen e.request.screen = .idle) ∧
          (∀ i, (∀ e ∈ s.dispatcher.queue, e.request.screen ≠ i) → u.screen i = s.screen i) ∧
          (¬ s.Searching → u = loading u dropped) ∧
          (s.Searching → u = { s with
            site := { s.site with state := .draining, drain := some (.load address) }
            flow := { s.flow with timer := none, cycle := none }
            dispatcher := u.dispatcher
            conditions := s.conditions
            link := (s.link.offerAll (dropped ++
              [.siteState .draining s.site.generation .load])).answered 0x8A [0] }))))

/-- The drain ends when no lane is SEARCHING: the pending open or load proceeds. -/
def Obligations.DrainEndsWhenNoLaneSearches : Prop :=
  ∀ s : State, s.Running → s.site.state = .draining →
    (s.Searching → exec .drainEnd s = .next s) ∧
    (¬ s.Searching → s.site.drain = some .openSession →
      exec .drainEnd s = .next { s with
        site := { s.site with state := .editing, drain := none }
        conditions := { s.conditions with timer := none }
        flow := { s.flow with timer := none, cycle := none }
        link := s.link.offer (.siteState .editing s.site.generation .drain) }) ∧
    (∀ address, ¬ s.Searching → s.site.drain = some (.load address) →
      exec .drainEnd s = .next { s with
        site := { s.site with state := .loading, drain := none }
        transfer := { state := .readyWait, operation := some .load, address := some address, imageLength := none
                      check := 0, expected := 0, offset := 0, position := none, sent := [.readStatus]
                      last := s.transfer.last }
        conditions := { s.conditions with timer := none }
        flow := { s.flow with timer := none, cycle := none }
        link := s.link.offer (.siteState .loading s.site.generation .drain) })

/-- SITE CLOSE of tables that pass validation: the next generation, VALID, the channels seeded, the immediate turn with
cause SITE, and, with the clock UNSET, the live tables at the site defaults; with the clock SET, the catch-up into them, with
its LATE entries and notices, as `State.EntersValid` writes the sequence out. What the reply carries in the fields that do
not apply is the model's reading (notes/assumptions/13.md); that `State.EntersValid` has an edge at or above the edge count
hold no motion mode is the model's choice (notes/assumptions/29.md). -/
def Obligations.SiteCloseEntersValid : Prop :=
  ∀ s : State, s.Started → s.transfer.state = .idle → s.site.state = .editing ∨ s.site.state = .invalid →
    s.site.firstFailure = none →
    ∃ t, exec (.siteClose []) s = .next t ∧
      t.site = { s.site with state := .valid, generation := s.site.generation + 1 } ∧
      t.conditions.epoch = s.conditions.epoch + 1 ∧ t.conditions.turn = .idle ∧
      t.conditions.timer = some s.link.parameters.turnPeriod ∧
      t.flow.timer = some s.link.parameters.sampleInterval ∧ t.flow.cycle = none ∧
      (∀ c, c < 64 →
        t.published c = (if (s.channelConfig c).enabled then .clear else .off) ∧
        t.channel c = { state := if (s.channelConfig c).enabled then .seeding else .off
                        level := if (s.channelConfig c).enabled then .clear else .off
                        filter := 0, average := 0, activation := 0, debounce := 0, plateau := 0, missed := 0
                        change := 0, lastCount := none }) ∧
      (s.schedule.clockSet = false →
        t.conditions.edits = [] ∧ t.schedule.late = [] ∧
        (∀ e, e < s.site.header.edgeCount →
          t.closure e = (if (s.edge e).closedByDefault then .closed else .opened) ∧
          t.motion e = (match (s.edge e).cls, (s.edge e).direction with
            | .escalator, .runAB => some .runAB | .escalator, .runBA => some .runBA
            | .escalator, .stopped => some .stopped
            | .travelator, .runAB => some .runAB | .travelator, .runBA => some .runBA
            | .travelator, .stopped => some .stopped
            | _, _ => none)) ∧
        (∀ e, s.site.header.edgeCount ≤ e → t.closure e = .opened) ∧
        (∀ g, g < 64 → t.gate g = s.gateDefault g) ∧
        t.link = (s.link.offerAll [.siteState .valid (s.site.generation + 1) .close,
          .turnDone (s.conditions.epoch + 1) 0 0 .site]).answered 0x87
            (([0, 0] : List Byte) ++ le16 (s.site.generation + 1).toNat ++ [0xFF, 0xFF, 0xFF, 0, 0])) ∧
      (¬ s.Searching → ∃ u, s.EntersValid u .close ∧
        t = { u with
          link := HostLink.answered u.link 0x87
            (([0, 0] : List Byte) ++ le16 (s.site.generation + 1).toNat ++ [0xFF, 0xFF, 0xFF, 0, 0]) }) ∧
      t = { s with
        site := t.site
        conditions := t.conditions
        flow := t.flow
        schedule := { s.schedule with late := t.schedule.late }
        link := { HostLink.answered s.link 0x87
                    (([0, 0] : List Byte) ++ le16 (s.site.generation + 1).toNat ++ [0xFF, 0xFF, 0xFF, 0, 0]) with
          notices := t.link.notices, overrunMark := t.link.overrunMark, dropped := t.link.dropped } }

/-- SITE CLOSE of tables that fail validation: INVALID with the first failure reported, the tables and the generation kept;
refused while a transfer runs, and in VALID, DRAINING and EMPTY.
The generation
in the reply of a failed close is the model's reading (notes/assumptions/13.md). -/
def Obligations.SiteCloseReportsTheFirstFailure : Prop :=
  ∀ s : State, s.Started →
    (s.transfer.state ≠ .idle → exec (.siteClose []) s = .next (s.answers 0x87 [23])) ∧
    (s.transfer.state = .idle → s.site.state = .valid ∨ s.site.state = .draining ∨ s.site.state = .empty →
      exec (.siteClose []) s = .next (s.answers 0x87 [11])) ∧
    (∀ f, s.transfer.state = .idle → s.site.state = .editing ∨ s.site.state = .invalid →
      s.site.firstFailure = some f →
      exec (.siteClose []) s = .next { s with
        site := { s.site with state := .invalid }
        conditions := { s.conditions with timer := none }
        flow := { s.flow with timer := none, cycle := none }
        link := HostLink.answered (s.link.offerAll [.siteState .invalid s.site.generation .close]) 0x87
                  (([0, 1, 0xFF, 0xFF] : List Byte) ++ le8 f.table.code ++ le16 f.index ++ f.code.bytes) })

/-- Validation reports the first failing check in the order of the tables, of the indices and of the check codes; the exit
group's check G3 stands after the group records, reported against the groups with the exit group's index. What each check
asks of its record, N1 to C2 and F1 to F4, is written out. -/
def Obligations.ValidationReportsTheEarliestFailure : Prop :=
  (∀ (s : SiteStore),
    (s.firstFailure = none ↔
      (∀ t ∈ TableId.imageOrder, ∀ i, i < s.header.recordsOf t → ∀ check ∈ t.checks, check.2 s i = true) ∧
        s.header.exitGroup < s.header.groupCount) ∧
    ∀ f : Failure, s.firstFailure = some f → f.code ≠ .G3 →
      ∃ before after tablesBefore tablesAfter, TableId.imageOrder = tablesBefore ++ f.table :: tablesAfter ∧
        ∃ check, f.table.checks = before ++ (f.code, check) :: after ∧
          f.index < s.header.recordsOf f.table ∧ check s f.index = false ∧
          (∀ c ∈ before, c.2 s f.index = true) ∧
          (∀ i, i < f.index → ∀ c ∈ f.table.checks, c.2 s i = true) ∧
          (∀ t ∈ tablesBefore, ∀ i, i < s.header.recordsOf t → ∀ c ∈ t.checks, c.2 s i = true) ∧
          (TableId.groups ∈ tablesBefore → s.header.exitGroup < s.header.groupCount)) ∧
  (∀ s : SiteStore,
    s.firstFailure = some { table := .groups, index := s.header.exitGroup, code := .G3 } ↔
      (∀ t ∈ [TableId.nodes, .edges, .adjacency, .groups], ∀ i, i < s.header.recordsOf t → ∀ c ∈ t.checks,
        c.2 s i = true) ∧ s.header.groupCount ≤ s.header.exitGroup) ∧
  (∀ (s : SiteStore) (f : Failure), s.firstFailure = some f → f.code = .G3 →
    f = { table := .groups, index := s.header.exitGroup, code := .G3 }) ∧
  TableId.imageOrder = [.nodes, .edges, .adjacency, .groups, .members, .directory, .gates, .profiles, .screens, .channels,
    .schedule] ∧
  ([TableId.nodes, .edges, .adjacency, .groups, .members, .directory, .gates, .profiles, .screens, .channels,
      .schedule].map fun t => t.checks.map Prod.fst) =
    [[.N1], [.E1, .E2, .E3, .E4, .E5], [.A1, .A2], [.G1, .G2], [.M1], [.D1], [], [.P1], [.S1], [.F1, .F2, .F3, .F4],
      [.C1, .C2]] ∧
  ∀ (s : SiteStore) (i : Nat),
    let passes (t : TableId) (code : CheckCode) : Prop := ∀ check, (code, check) ∈ t.checks → check s i = true
    let inSlice (n j : Nat) : Prop :=
      (s.nodeAt n).adjacencyStart ≤ j ∧ j < (s.nodeAt n).adjacencyStart + (s.nodeAt n).adjacencyCount
    let edge := s.edgeAt i
    let floor (n : Nat) : Nat := (s.nodeAt n).floor
    let climbs : Prop := edge.cls = .stairs ∨ edge.cls = .escalator ∨ edge.cls = .elevator
    let moving (e : Edge) : Prop := e.cls = .escalator ∨ e.cls = .travelator
    let named := s.edgeAt (s.adjacentAt i)
    let group := s.groupAt i
    let entry := Table.get DirectoryEntry.cleared s.directory i
    let profile := Table.get Profile.cleared s.profiles i
    let screen := Table.get Screen.cleared s.screens i
    let channel := s.channelAt i
    let target := (Table.get ScheduleEntry.cleared s.schedule i).target
    (passes .nodes .N1 ↔ (s.nodeAt i).adjacencyStart + (s.nodeAt i).adjacencyCount ≤ s.header.adjacencyCount) ∧
    (passes .edges .E1 ↔ edge.a < s.header.nodeCount ∧ edge.b < s.header.nodeCount ∧ edge.a ≠ edge.b) ∧
    (passes .edges .E2 ↔ ∃ j k, j ≠ k ∧ inSlice edge.a j ∧ inSlice edge.b k ∧
      ∀ m, m = j ∨ m = k ↔ m < s.header.adjacencyCount ∧ s.adjacentAt m = i) ∧
    (passes .edges .E3 ↔ (edge.cls = .elevator → edge.heading = none ∧ edge.length = 0) ∧
      (edge.cls ≠ .elevator → edge.heading ≠ none)) ∧
    (passes .edges .E4 ↔ (climbs ↔ floor edge.a ≠ floor edge.b)) ∧
    (passes .edges .E5 ↔ (moving edge ↔ edge.direction ≠ .both)) ∧
    (passes .adjacency .A1 ↔ s.adjacentAt i < s.header.edgeCount) ∧
    (passes .adjacency .A2 ↔ ∃ n, (∀ m, m = n ↔ m < s.header.nodeCount ∧ inSlice m i) ∧ (n = named.a ∨ n = named.b)) ∧
    (passes .groups .G1 ↔ group.memberStart + group.memberCount ≤ s.header.memberCount) ∧
    (passes .groups .G2 ↔ ∀ j k, j < group.memberCount → k < group.memberCount → j ≠ k →
      (s.memberAt (group.memberStart + j)).node ≠ (s.memberAt (group.memberStart + k)).node) ∧
    (passes .members .M1 ↔ (s.memberAt i).node < s.header.nodeCount) ∧
    (passes .directory .D1 ↔ (entry.kind = .direct → entry.ref < s.header.nodeCount) ∧
      (entry.kind = .group → entry.ref < s.header.groupCount)) ∧
    (passes .profiles .P1 ↔ (i = 7 → profile.stairs = true)) ∧
    (passes .screens .S1 ↔ (screen.enabled = true → screen.node < s.header.nodeCount)) ∧
    (passes .channels .F1 ↔ (channel.enabled = true → channel.role = .follower →
      (s.channelAt channel.reference).enabled = true)) ∧
    (passes .channels .F2 ↔ (channel.enabled = true → channel.role = .follower →
      (s.channelAt channel.reference).role = .reference)) ∧
    (passes .channels .F3 ↔ (channel.enabled = true → channel.hysteresis < channel.ceiling)) ∧
    (passes .channels .F4 ↔ (channel.enabled = true → channel.plateauSamples = 0 ∨ 0 < channel.settleBand)) ∧
    (passes .schedule .C1 ↔ (target.kind = .edge ∨ target.kind = .motion → target.index < s.header.edgeCount)) ∧
    (passes .schedule .C2 ↔ (target.kind = .motion → moving (s.edgeAt target.index)))

/-! ### Live conditions, turns and the clock -/

/-- CONDITION: its checks in their order, and the edit placed: in place of the entry for its target, or at the end. -/
def Obligations.ConditionIsCheckedAndPlaced : Prop :=
  (∀ (s : State) (kind index value : Nat), s.Open → s.link.startPending = true → kind < 256 → index < 65536 → value < 256 →
    exec (.condition (le8 kind ++ le16 index ++ le8 value)) s = .next (s.answers 0x8C [9])) ∧
  ∀ (s : State) (kind index value : Nat), s.Started → kind < 256 → index < 65536 → value < 256 →
    let c := Instr.condition (le8 kind ++ le16 index ++ le8 value)
    let moving : Prop := (s.edge index).cls = .escalator ∨ (s.edge index).cls = .travelator
    (s.site.state ≠ .valid → exec c s = .next (s.answers 0x8C [10])) ∧
    (s.site.state = .valid →
      (3 ≤ kind → exec c s = .next (s.answers 0x8C [19])) ∧
      (kind ≤ 1 → s.site.header.edgeCount ≤ index → exec c s = .next (s.answers 0x8C [20])) ∧
      (kind = 2 → 64 ≤ index → exec c s = .next (s.answers 0x8C [20])) ∧
      (kind = 1 → index < s.site.header.edgeCount → ¬ moving → exec c s = .next (s.answers 0x8C [19])) ∧
      ∀ t : Target, t.index = index →
        (t.kind = .edge ∧ kind = 0 ∧ index < s.site.header.edgeCount) ∨
          (t.kind = .motion ∧ kind = 1 ∧ index < s.site.header.edgeCount ∧ moving) ∨
          (t.kind = .gate ∧ kind = 2 ∧ index < 64) →
        ((t.kind ≠ .motion → 2 ≤ value → exec c s = .next (s.answers 0x8C [21])) ∧
        (t.kind = .motion → 3 ≤ value → exec c s = .next (s.answers 0x8C [21])) ∧
        ∀ v : Setting, v.code = value → v.belongsTo t.kind = true →
          let edit : Edit := { target := t, value := v, source := .host }
          let placed (edits : List Edit) : State := { s with
            conditions := { s.conditions with edits := edits }
            link := s.link.answered 0x8C (0 :: le8 edits.length) }
          ((∀ e ∈ s.conditions.edits, e.target ≠ t) →
            (64 ≤ s.conditions.edits.length → exec c s = .next (s.answers 0x8C [18])) ∧
            (s.conditions.edits.length < 64 → exec c s = .next (placed (s.conditions.edits ++ [edit])))) ∧
          (∀ before e after, s.conditions.edits = before ++ e :: after → e.target = t →
            (∀ x ∈ before ++ after, x.target ≠ t) →
            exec c s = .next (placed (before ++ edit :: after)))))

/-- CONDITION READ answers the live value, the default, what the pending list holds for the target, the epoch and the turn
state, and is refused outside VALID and DRAINING and for a target that CONDITION refuses. -/
def Obligations.ConditionReadReportsTheTarget : Prop :=
  ∀ (s : State) (kind index : Nat), s.Started → kind < 256 → index < 65536 →
    let c := Instr.conditionRead (le8 kind ++ le16 index)
    let moving : Prop := (s.edge index).cls = .escalator ∨ (s.edge index).cls = .travelator
    (s.site.state ≠ .valid → s.site.state ≠ .draining → exec c s = .next (s.answers 0x8D [10])) ∧
    (s.site.state = .valid ∨ s.site.state = .draining →
      (3 ≤ kind → exec c s = .next (s.answers 0x8D [19])) ∧
      (kind ≤ 1 → s.site.header.edgeCount ≤ index → exec c s = .next (s.answers 0x8D [20])) ∧
      (kind = 2 → 64 ≤ index → exec c s = .next (s.answers 0x8D [20])) ∧
      (kind = 1 → index < s.site.header.edgeCount → ¬ moving → exec c s = .next (s.answers 0x8D [19])) ∧
      ∀ t : Target, t.index = index →
        (t.kind = .edge ∧ kind = 0 ∧ index < s.site.header.edgeCount) ∨
          (t.kind = .motion ∧ kind = 1 ∧ index < s.site.header.edgeCount ∧ moving) ∨
          (t.kind = .gate ∧ kind = 2 ∧ index < 64) →
        ∃ live dflt pending : List Byte,
          exec c s = .next (s.answers 0x8D (0 :: (live ++ dflt ++ pending ++ le16 s.conditions.epoch.toNat ++
            le8 (match s.conditions.turn with | .idle => 0 | .waiting _ => 1)))) ∧
          (t.kind = .edge → live = le8 (s.closure index).code ∧
            dflt = le8 (if (s.edge index).closedByDefault then 1 else 0)) ∧
          (t.kind = .gate → live = le8 (s.gate index).code ∧ dflt = le8 (s.gateDefault index).code) ∧
          (t.kind = .motion → (∀ m, s.motion index = some m → live = le8 m.code) ∧
            (∀ m : Motion, (s.edge index).direction.code = m.code → dflt = le8 m.code)) ∧
          ((∀ e ∈ s.conditions.edits, e.target ≠ t) → pending = [0xFF, 0xFF, 0xFF, 0xFF]) ∧
          (∀ before e after, s.conditions.edits = before ++ e :: after → e.target = t → (∀ x ∈ before, x.target ≠ t) →
            pending = le8 e.value.code ++
              (match e.source with
                | .host => [0, 0xFF]
                | .schedule i => [1] ++ le8 i) ++ le8 (before.length + 1)))

/-- TURN NOW: refused outside VALID and DRAINING, ALREADY while a turn waits, NOTHING with nothing to apply; otherwise a
turn with cause REQUEST begins, and applies at once when no lane is SEARCHING. The turn timer starts again with the present
turn period at each expiry, and a turn with cause TIMER begins in IDLE with something to apply.
A running timer is
held as the length it was started with (notes/assumptions/7.md). -/
def Obligations.TurnsBeginOnRequestAndByTimer : Prop :=
  (∀ s : State, s.Started →
    (s.site.state ≠ .valid → s.site.state ≠ .draining → exec (.turnNow []) s = .next (s.answers 0x8E [10])) ∧
    (s.site.state = .valid ∨ s.site.state = .draining →
      (∀ cause, s.conditions.turn = .waiting cause → exec (.turnNow []) s = .next (s.answers 0x8E [3])) ∧
      (s.conditions.turn = .idle → ¬ s.HasWork → exec (.turnNow []) s = .next (s.answers 0x8E [1])) ∧
      (s.conditions.turn = .idle → s.HasWork → s.Searching →
        exec (.turnNow []) s = .next { s.answers 0x8E [0] with
          conditions := { s.conditions with turn := .waiting .request } }) ∧
      (s.conditions.turn = .idle → s.HasWork → ¬ s.Searching →
        ∃ t, exec (.turnNow []) s = .next t ∧
          exec .applyStep { s with conditions := { s.conditions with turn := .waiting .request } } =
            .next { t with link := { t.link with
              replies := s.link.replies, reception := s.link.reception, assembled := s.link.assembled
              gapTimer := s.link.gapTimer } } ∧
          t.conditions.epoch = s.conditions.epoch + 1 ∧ t.conditions.timer = s.conditions.timer ∧
          t.link.replies = s.link.replies ++ [.reply { kind := 0x8E, payload := [0] }] ∧
          t.link.reception = .hunt ∧ t.link.assembled = [] ∧ t.link.gapTimer = false))) ∧
  ∀ (s : State) (length : Nat), s.Running → s.conditions.timer = some length →
    let restarted : State :=
      { s with conditions := { s.conditions with timer := some s.link.parameters.turnPeriod } }
    (s.conditions.turn ≠ .idle ∨ ¬ s.HasWork → exec .turnTimerExpiry s = .next restarted) ∧
    (s.conditions.turn = .idle → s.HasWork → s.Searching →
      exec .turnTimerExpiry s = .next { s with conditions :=
        { s.conditions with timer := some s.link.parameters.turnPeriod, turn := .waiting .timer } }) ∧
    (s.conditions.turn = .idle → s.HasWork → ¬ s.Searching →
      ∃ t, exec .turnTimerExpiry s = .next t ∧
        exec .applyStep { restarted with conditions := { restarted.conditions with turn := .waiting .timer } } =
          .next t ∧
        t.conditions.epoch = s.conditions.epoch + 1 ∧
        t.conditions.timer = some s.link.parameters.turnPeriod)

/-- The apply step, once no lane is SEARCHING: each pending entry becomes its target's live value, no other live value
changes, the levels are published, the epoch is incremented, TURN DONE carries the counts and the cause, and the turn state
is IDLE; while a lane searches nothing happens. After a turn in VALID the LATE entries, when they fit the emptied list,
leave it, and the list holds for each of their targets the value of the last of them; in any other state they stay LATE. -/
def Obligations.ApplyStepAppliesTheTurn : Prop :=
  (∀ (s : State) (cause : TurnCause), s.Running → s.conditions.turn = .waiting cause →
    (s.Searching → exec .applyStep s = .next s) ∧
    (¬ s.Searching → s.Canonical → (s.conditions.edits.map Edit.target).Nodup →
      (∀ e ∈ s.conditions.edits, e.value.belongsTo e.target.kind = true) →
      ∃ t, exec .applyStep s = .next t ∧
        (∀ e ∈ s.conditions.edits, t.liveCode e.target = some e.value.code) ∧
        (∀ target, (∀ e ∈ s.conditions.edits, e.target ≠ target) → t.liveCode target = s.liveCode target) ∧
        (∀ c, c < 64 → t.published c = (s.channel c).level) ∧
        t.conditions.epoch = s.conditions.epoch + 1 ∧ t.conditions.turn = .idle ∧
        t.conditions.timer = s.conditions.timer ∧
        (s.schedule.late = [] → t.conditions.edits = []) ∧
        t.link = s.link.offer (.turnDone (s.conditions.epoch + 1) s.conditions.edits.length
          ((List.range 64).filter fun c => (s.channel c).level ≠ s.published c).length cause) ∧
        t = { s with conditions := t.conditions, schedule := { s.schedule with late := t.schedule.late }, link := t.link })) ∧
  ∀ (s : State) (cause : TurnCause), s.Running → s.conditions.turn = .waiting cause → ¬ s.Searching →
    ∃ t, exec .applyStep s = .next t ∧
      (s.site.state ≠ .valid → t.schedule.late = s.schedule.late ∧ t.conditions.edits = []) ∧
      (s.site.state = .valid → s.schedule.late.length ≤ 64 →
        t.schedule.late = [] ∧
        (t.conditions.edits.map Edit.target).Nodup ∧
        (∀ before i after, s.schedule.late = before ++ i :: after →
          (∀ j ∈ after, (s.scheduleEntry j).target ≠ (s.scheduleEntry i).target) →
          ({ target := (s.scheduleEntry i).target, value := (s.scheduleEntry i).value, source := .schedule i } : Edit) ∈
            t.conditions.edits) ∧
        (∀ e ∈ t.conditions.edits, ∃ i ∈ s.schedule.late, e.source = .schedule i))

/-- A tick advances a SET clock by a second, over midnight into the next day, and makes a minute boundary at every multiple
of 60; an UNSET clock stands.
The mark of a boundary not yet served is the model's own (notes/assumptions/8.md). -/
def Obligations.TickAdvancesTheClock : Prop :=
  ∀ s : State, s.Running →
    (s.schedule.clockSet = false → exec .tick s = .next s) ∧
    (s.schedule.clockSet = true → s.schedule.second < 86399 →
      exec .tick s = .next { s with schedule := { s.schedule with
        second := s.schedule.second + 1
        boundaryDue := s.schedule.boundaryDue || (s.schedule.second + 1) % 60 == 0 } }) ∧
    (s.schedule.clockSet = true → s.schedule.second = 86399 →
      exec .tick s = .next { s with schedule := { s.schedule with
        second := 0, day := (s.schedule.day + 1) % 7, boundaryDue := true } })

/-- At a minute boundary in VALID each due entry's edit is offered in index order, so that the highest due index supplies a
target's value; in DRAINING each due entry becomes LATE; elsewhere, and with the clock UNSET, nothing is offered. An entry
that a full list refuses becomes LATE, and each new LATE entry is told by SCHEDULE LATE. That the row does nothing when no
boundary is due is the model's choice (notes/assumptions/4.md), and so are the mark of a boundary not yet served and the
minute, which is the clock's when the row is taken (notes/assumptions/8.md). -/
def Obligations.MinuteBoundaryFiresTheDueEntries : Prop :=
  ∀ s : State, s.Running →
    let due (i : Nat) : Prop := s.Fires s.schedule.day i ∧ (s.scheduleEntry i).minute = s.schedule.second / 60
    let served : State := { s with schedule := { s.schedule with boundaryDue := false } }
    (s.schedule.boundaryDue = false → exec .minuteBoundary s = .next s) ∧
    (s.schedule.boundaryDue = true → s.schedule.clockSet = true → s.site.state = .valid ∨ s.site.state = .draining →
      (s.conditions.edits.map Edit.target).Nodup →
      ∃ dues t, exec .minuteBoundary s = .next t ∧ (∀ i, i ∈ dues ↔ due i) ∧ dues.Pairwise (· < ·) ∧
        served.Offers dues t) ∧
    (s.schedule.boundaryDue = true →
      (s.schedule.clockSet = false ∨ (s.site.state ≠ .valid ∧ s.site.state ≠ .draining) →
        exec .minuteBoundary s = .next served) ∧
      (s.schedule.clockSet = true → s.site.state = .draining →
        ∃ t, exec .minuteBoundary s = .next t ∧ t.conditions = s.conditions ∧
          (∀ i, i ∈ t.schedule.late ↔ i ∈ s.schedule.late ∨ due i) ∧
          (∃ marked, t.schedule.late = s.schedule.late ++ marked ∧ marked.Pairwise (· < ·)) ∧
          t = { served with schedule := { served.schedule with late := t.schedule.late }
                            link := { s.link with notices := t.link.notices, overrunMark := t.link.overrunMark,
                                                  dropped := t.link.dropped } }) ∧
      (s.schedule.clockSet = true → s.site.state = .valid →
        s.conditions.edits.length + s.site.header.scheduleCount ≤ 64 →
        ∃ t, exec .minuteBoundary s = .next t ∧
          (∀ i, due i → (∀ j, due j → i < j → (s.scheduleEntry j).target ≠ (s.scheduleEntry i).target) →
            ∃ e ∈ t.conditions.edits, e.target = (s.scheduleEntry i).target ∧ e.value = (s.scheduleEntry i).value ∧
              e.source = .schedule i) ∧
          (∀ e ∈ s.conditions.edits, (∀ i, due i → (s.scheduleEntry i).target ≠ e.target) → e ∈ t.conditions.edits) ∧
          (∀ i, i ∈ t.schedule.late ↔ i ∈ s.schedule.late ∧ ¬ due i) ∧
          t = { served with conditions := { s.conditions with edits := t.conditions.edits }
                            schedule := { served.schedule with late := t.schedule.late } }))

/-- SET CLOCK writes the second and the day and sets the clock; refused for a second above 86399 or a day above 6. In VALID
and DRAINING a catch-up follows: its survivors are offered to the emptied LATE list, in DRAINING each of them becomes LATE, and
a turn with cause SCHEDULE begins when there is something to apply, at once with no lane SEARCHING. Elsewhere there is none.
That the write drops a minute boundary not yet served is the model's choice (notes/assumptions/8.md). -/
def Obligations.SetClockWritesTheClock : Prop :=
  ∀ (s : State) (second day : Nat), s.Started → second < 4294967296 → day < 256 →
    let c := Instr.setClock (le32 second ++ le8 day)
    (86399 < second ∨ 6 < day → exec c s = .next (s.answers 0x8F [21])) ∧
    (second ≤ 86399 → day ≤ 6 →
      (s.site.state ≠ .valid → s.site.state ≠ .draining →
        exec c s = .next { s.answers 0x8F [0] with schedule :=
          { clockSet := true, second := second, day := day, late := s.schedule.late, boundaryDue := false } }) ∧
      (s.site.state = .valid ∨ s.site.state = .draining → s.schedule.late.Nodup →
        (s.conditions.edits.map Edit.target).Nodup →
        let set (late : List Nat) : State := { s with schedule :=
          { clockSet := true, second := second, day := day, late := late, boundaryDue := false } }
        ∃ kept u, (set s.schedule.late).Survivors kept ∧ (set []).Offers kept u ∧
          (s.site.state = .draining → u.schedule.late = kept ∧ u.conditions = s.conditions) ∧
          (s.conditions.turn ≠ .idle ∨ ¬ u.HasWork →
            exec c s = .next { u with link := u.link.answered 0x8F [0] }) ∧
          (s.conditions.turn = .idle → u.HasWork → s.Searching →
            exec c s = .next { u with
              conditions := { u.conditions with turn := .waiting .schedule }
              link := u.link.answered 0x8F [0] }) ∧
          (s.conditions.turn = .idle → u.HasWork → ¬ s.Searching →
            ∃ v, exec .applyStep { u with conditions := { u.conditions with turn := .waiting .schedule } } = .next v ∧
              exec c s = .next { v with link := v.link.answered 0x8F [0] })) ∧
      (s.site.state = .valid ∨ s.site.state = .draining →
        ∃ t, exec c s = .next t ∧
          t.schedule.clockSet = true ∧ t.schedule.second = second ∧ t.schedule.day = day ∧
          t = { s with
            conditions := t.conditions
            schedule := t.schedule
            link := { s.link.answered 0x8F [0] with
              notices := t.link.notices, overrunMark := t.link.overrunMark, dropped := t.link.dropped } }))

/-- The catch-up of a SET CLOCK in VALID, while the searching lanes hold its turn back: of the entries due so far today the
latest for each target, by minute and then by index, stands in the pending list, and no other joins it. -/
def Obligations.CatchUpKeepsTheLatestEntry : Prop :=
  ∀ (s : State) (second day : Nat), s.Started → s.Searching → s.site.state = .valid → s.conditions.edits = [] →
    s.schedule.late = [] → s.site.header.scheduleCount ≤ 64 → second ≤ 86399 → day ≤ 6 →
    let due (i : Nat) : Prop := s.Fires day i ∧ (s.scheduleEntry i).minute ≤ second / 60
    let later (i j : Nat) : Prop := (s.scheduleEntry i).minute < (s.scheduleEntry j).minute ∨
      ((s.scheduleEntry i).minute = (s.scheduleEntry j).minute ∧ i < j)
    ∃ t, exec (.setClock (le32 second ++ le8 day)) s = .next t ∧ t.schedule.late = [] ∧
      (∀ e : Edit, e ∈ t.conditions.edits ↔
        ∃ i, due i ∧ e = { target := (s.scheduleEntry i).target, value := (s.scheduleEntry i).value
                           source := .schedule i } ∧
          ∀ j, due j → later i j → (s.scheduleEntry j).target ≠ (s.scheduleEntry i).target) ∧
      (t.conditions.edits ≠ [] → s.conditions.turn = .idle → t.conditions.turn = .waiting .schedule) ∧
      t.conditions.epoch = s.conditions.epoch

/-! ### Requests, lanes and results -/

/-- R88: a ROUTE is refused with the code of the first check that fails, in both modes; nothing but the reply is changed. -/
def Obligations.RouteIsRefusedByTheFirstFailingCheck : Prop :=
  ∀ (s : State) (screen destination tag : Nat) (choice : Option Nat) (assist : Byte), s.Open →
    screen < 256 → destination < 65536 → tag < 65536 → (∀ p, choice = some p → p < 255) →
    let c := Instr.route (le8 screen ++ le16 destination ++ le8 (choice.getD 255) ++ le16 tag ++ [assist])
    let refused (code : Byte) : Prop := exec c s = .next (s.answers 0x90 [code])
    (s.link.startPending = true → refused 9) ∧
    (s.link.startPending = false →
      (s.site.state ≠ .valid → refused 10) ∧
      (s.site.state = .valid →
        (64 ≤ screen ∨ (s.screenRecord screen).enabled = false → refused 12) ∧
        (screen < 64 → (s.screenRecord screen).enabled = true →
          (1024 ≤ destination ∨ s.site.header.directoryCount ≤ destination ∨
            (s.directoryEntry destination).kind = .unused → refused 13) ∧
          (destination < 1024 → destination < s.site.header.directoryCount →
            (s.directoryEntry destination).kind ≠ .unused →
            ((∃ p, choice = some p ∧ 7 < p) → refused 14) ∧
            ((∀ p, choice = some p → p ≤ 7) →
              (s.screen screen = .queued ∨ (∃ l, s.screen screen = .active l) → refused 15) ∧
              ((∃ n, s.screen screen = .ready n) → refused 16) ∧
              (s.screen screen = .idle → 32 ≤ s.dispatcher.queue.length → refused 17))))))

/-- R89: an accepted ROUTE is the last entry of the queue, with no pass and the mark of the mode, its screen is QUEUED, and
the reply is OK. -/
def Obligations.AcceptedRouteJoinsTheTail : Prop :=
  ∀ (s : State) (screen destination tag : Nat) (choice : Option Nat) (assist : Byte), s.Started →
    s.site.state = .valid → screen < 64 → (s.screenRecord screen).enabled = true →
    destination < 1024 → destination < s.site.header.directoryCount → (s.directoryEntry destination).kind ≠ .unused →
    (∀ p, choice = some p → p ≤ 7) → tag < 65536 → s.screen screen = .idle → s.dispatcher.queue.length < 32 →
    ∃ t, exec (.route (le8 screen ++ le16 destination ++ le8 (choice.getD 255) ++ le16 tag ++ [assist])) s = .next t ∧
      t.dispatcher.queue = s.dispatcher.queue ++
        [{ request := { screen := screen, destination := destination, choice := choice, tag := tag
                        assist := assist ≠ 0, passes := 0 }
           egressMark := s.egress.mode = .egress }] ∧
      t.screen screen = .queued ∧ (∀ i, i ≠ screen → t.screen i = s.screen i) ∧
      t = { s.answers 0x90 [0] with dispatcher := t.dispatcher }

/-- CANCEL ends what a screen has outstanding: its queue entry, its lane's work, or its slot, which a holding lane then
takes; the screen ends IDLE. Refused for a screen of 64 or more, and NOTHING_PENDING in IDLE. -/
def Obligations.CancelEndsWhatAScreenHas : Prop :=
  ∀ (s : State) (b : Byte), s.Started → s.Canonical →
    let c := Instr.cancel [b]
    let screen := b.toNat
    (64 ≤ screen → exec c s = .next (s.answers 0x91 [12])) ∧
    (screen < 64 →
      (s.screen screen = .idle → exec c s = .next (s.answers 0x91 [2])) ∧
      (s.screen screen = .queued → ∃ t, exec c s = .next t ∧
        t.dispatcher.queue = s.dispatcher.queue.filter (fun e => e.request.screen ≠ screen) ∧
        t.screen screen = .idle ∧ (∀ i, i ≠ screen → t.screen i = s.screen i) ∧
        t = { s.answers 0x91 [0] with dispatcher := t.dispatcher }) ∧
      (∀ l, s.screen screen = .active l → ∃ t, exec c s = .next t ∧
        (t.lane l).state = .free ∧ (t.lane l).request = none ∧ (t.lane l).context = none ∧ (t.lane l).targets = [] ∧
        (t.lane l).record = none ∧ (t.lane l).trimmed = false ∧ (t.lane l).egress = false ∧
        (t.lane l).destClosed = false ∧ (t.lane l).clockUnset = false ∧
        (∀ m, m ≠ l → t.lane m = s.lane m) ∧
        t.screen screen = .idle ∧ (∀ i, i ≠ screen → t.screen i = s.screen i) ∧
        t = { s.answers 0x91 [0] with
          lanes := t.lanes
          store := { s.store with holders := s.store.holders.filter fun h => h ≠ l }
          dispatcher := { s.dispatcher with screens := t.dispatcher.screens } }) ∧
      (∀ n, s.screen screen = .ready n → ∃ u, s.SlotFreed u n screen ∧
        exec c s = .next { u with link := u.link.answered 0x91 [0] }))

/-- COLLECT delivers the record of a READY screen and frees its slot; refused for a screen of 64 or more, and NO_RESULT
unless READY. The bytes of a record and of its legs lie as R179 lays them out, a set flag being 1 (notes/assumptions/2.md).
The expiry of a slot's hold timer offers RESULT EXPIRED and frees the slot; that on a FREE slot it does nothing is the model's
choice (notes/assumptions/4.md). The row SLOT_GRANT serves a FREE slot beside a holding lane and otherwise does nothing, which
is the model's reading (notes/assumptions/5.md). -/
def Obligations.CollectingAndExpiryFreeTheSlot : Prop :=
  (∀ (s : State) (b : Byte), s.Started → s.Canonical →
    (64 ≤ b.toNat → exec (.collect [b]) s = .next (s.answers 0x92 [12])) ∧
    (b.toNat < 64 →
      ((∀ n, s.screen b.toNat ≠ .ready n) → exec (.collect [b]) s = .next (s.answers 0x92 [4])) ∧
      (∀ n h, s.screen b.toNat = .ready n → s.slot n = some h → ∃ u, s.SlotFreed u n b.toNat ∧
        exec (.collect [b]) s = .next { u with link := u.link.answered 0x92 (0 :: h.record.bytes) }))) ∧
  (∀ r : RouteRecord,
    let d := r.bytes
    let flag (b : Bool) (worth : Nat) : Nat := if b then worth else 0
    d.length = 32 + 18 * r.legs.length ∧
    wordAt d 0 = r.tag % 65536 ∧ byteAt d 2 = r.screen % 256 ∧
    byteAt d 3 = (match r.status with | .found => 0 | .arrived => 1 | .unreachable => 2 | .noOpenEntrance => 3) ∧
    wordAt d 4 = r.destination % 65536 ∧ byteAt d 6 = r.category % 256 ∧
    byteAt d 7 = flag r.trimmed 1 + flag r.summarised 2 + flag r.egress 4 + flag r.destClosed 8 + flag r.clockUnset 16 ∧
    byteAt d 8 = (match r.reached with | some k => k % 256 | none => 255) ∧
    byteAt d 9 = (match r.target with | some (_, floor) => floor % 256 | none => 255) ∧
    wordAt d 10 = (match r.target with | some (node, _) => node % 65536 | none => 65535) ∧
    longAt d 12 = r.totalTime % 4294967296 ∧ longAt d 16 = r.seconds % 4294967296 ∧ wordAt d 20 = r.minutes % 65536 ∧
    longAt d 22 = r.distance % 4294967296 ∧ wordAt d 26 = r.epoch.toNat ∧ wordAt d 28 = r.generation.toNat ∧
    byteAt d 30 = r.legs.length % 256 ∧ byteAt d 31 = 0 ∧
    ∀ i leg, r.legs[i]? = some leg →
      let o := 32 + 18 * i
      byteAt d o = (match leg.kind with
        | .walk => 0 | .door => 1 | .stairsUp => 2 | .stairsDown => 3 | .escalatorUp => 4 | .escalatorDown => 5
        | .elevatorUp => 6 | .elevatorDown => 7 | .travelator => 8 | .onward => 9) ∧
      byteAt d (o + 1) = flag leg.stopped 1 ∧
      byteAt d (o + 2) = (match leg.turn with | some n => n % 256 | none => 8) ∧
      byteAt d (o + 3) = (match leg.heading with | some n => n % 256 | none => 8) ∧
      longAt d (o + 4) = leg.distance % 4294967296 ∧ longAt d (o + 8) = leg.time % 4294967296 ∧
      wordAt d (o + 12) = leg.endNode % 65536 ∧
      wordAt d (o + 14) = (match leg.landmark with | some n => n % 65536 | none => 65535) ∧
      byteAt d (o + 16) = leg.endFloor % 256 ∧ byteAt d (o + 17) = 0) ∧
  (∀ (s : State) (n : Fin 48), s.Running → s.Canonical →
    (s.slot n = none → exec (.holdTimerExpiry n) s = .next s) ∧
    (∀ h, s.slot n = some h → ∃ t, exec (.holdTimerExpiry n) s = .next t ∧
      State.SlotFreed { s with link := s.link.offer (.resultExpired h.screen h.record.tag) } t n h.screen)) ∧
  ∀ s : State, s.Running → s.Canonical →
    (s.store.holders = [] ∨ (∀ n, n < 48 → s.slot n ≠ none) → exec .slotGrant s = .next s) ∧
    ∀ n l rest r, n < 48 → s.slot n = none → (∀ m, m < n → s.slot m ≠ none) → s.store.holders = l :: rest →
      (s.lane l).record = some r →
      ∃ t, exec .slotGrant s = .next t ∧ s.Stored t n l r ∧ t.store.holders = rest ∧
        (∀ i, i ≠ r.screen → t.screen i = s.screen i) ∧
        t = { s with
          store := t.store
          dispatcher := { s.dispatcher with screens := t.dispatcher.screens }
          lanes := t.lanes
          link := s.link.offer (.resultReady r.screen n r.tag r.status) }

/-- GRANT takes the oldest entry of the highest effective priority (in EGRESS the head) for the FREE lane of lowest number,
and gives a pass to every entry ahead of it; the lane searches under the context taken, or, with no target or with the
origin a target, completes its record at once. Nothing happens while a condition of R92 fails. -/
def Obligations.GrantTakesTheChosenEntry : Prop :=
  (∀ s : State, s.Running →
    (∀ l, l < 4 → (s.lane l).state ≠ .free) ∨ s.dispatcher.queue = [] ∨ s.site.state ≠ .valid ∨
      s.conditions.turn ≠ .idle →
    exec .grant s = .next s) ∧
  ∀ (s : State) (l : Nat) (ahead behind : List QueueEntry) (e : QueueEntry), s.Running → s.Canonical →
    l < 4 → (s.lane l).state = .free → (∀ m, m < l → (s.lane m).state ≠ .free) →
    s.site.state = .valid → s.conditions.turn = .idle → s.dispatcher.queue = ahead ++ e :: behind →
    let q := e.request
    let priority (x : QueueEntry) : Nat :=
      if x.request.assist = true ∨ 8 ≤ x.request.passes then 3 else (s.screenRecord x.request.screen).priority
    (s.egress.mode = .normal →
      (∀ x ∈ ahead, priority x < priority e) ∧ ∀ x ∈ behind, priority x ≤ priority e) →
    (s.egress.mode = .egress → ahead = []) →
    let entry := s.directoryEntry q.destination
    let ctx : SearchContext :=
      { mode := s.egress.mode
        profile := match s.egress.mode, q.choice with
          | .egress, _ => 7
          | .normal, some p => p
          | .normal, none => (s.screenRecord q.screen).profile
        origin := (s.screenRecord q.screen).node
        facing := (s.screenRecord q.screen).facing
        kind := entry.kind, ref := entry.ref, category := entry.category, ownGate := entry.ownGate
        epoch := s.conditions.epoch, generation := s.site.generation, clockSet := s.schedule.clockSet }
    let targets := s.targetSet ctx
    let record (status : RouteStatus) (reached : Option Nat) (target : Option (Nat × Nat)) : RouteRecord :=
      { tag := q.tag, screen := q.screen, destination := q.destination, category := entry.category, status := status
        trimmed := false, summarised := false, egress := decide (s.egress.mode = .egress)
        destClosed := s.destClosed ctx, clockUnset := !s.schedule.clockSet, reached := reached, target := target
        totalTime := 0, seconds := 0, minutes := 0, distance := 0, epoch := ctx.epoch, generation := ctx.generation
        legs := [] }
    ∃ t, exec .grant s = .next t ∧
      t.dispatcher.queue = (ahead.map fun x =>
        ({ x with request := { x.request with passes := x.request.passes + 1 } } : QueueEntry)) ++ behind ∧
      t = { s with dispatcher := t.dispatcher, lanes := t.lanes, store := t.store
                   link := { s.link with notices := t.link.notices, overrunMark := t.link.overrunMark
                                         dropped := t.link.dropped } } ∧
      (targets ≠ [] → (∀ x ∈ targets, x.1 ≠ ctx.origin) →
        t.lane l = { state := .searching, request := some q, context := some ctx, targets := targets
                     labels := (s.lane l).labels, heap := (s.lane l).heap, trimmed := false
                     egress := decide (s.egress.mode = .egress), destClosed := s.destClosed ctx
                     clockUnset := !s.schedule.clockSet, record := none } ∧
        (∀ m, m ≠ l → t.lane m = s.lane m) ∧
        t.screen q.screen = .active l ∧ (∀ i, i ≠ q.screen → t.screen i = s.screen i) ∧
        t.store = s.store ∧ t.link = s.link) ∧
      (targets = [] → s.Completed t l q (record .noOpenEntrance none none)) ∧
      (∀ before k after, targets = before ++ (ctx.origin, k) :: after → (∀ x ∈ before, x.1 ≠ ctx.origin) →
        s.Completed t l q (record .arrived k (some (ctx.origin, (s.node ctx.origin).floor))))

/-- The target set of a search: in EGRESS every member of the exit group; in NORMAL the entry's node, the open members of its
group, or the first open one. DEST_CLOSED tells a closed own gate in NORMAL. -/
def Obligations.TargetsAreFormedFromTheEntry : Prop :=
  ∀ (s : State) (ctx : SearchContext),
    let memberOf (g i : Nat) : Member := s.member ((s.group g).memberStart + i)
    let opened (g i : Nat) : Prop := i < (s.group g).memberCount ∧
      ((memberOf g i).gate = none ∨ ∃ gate, (memberOf g i).gate = some gate ∧ s.gate gate = .opened)
    (ctx.mode = .egress → ∀ node k, (node, k) ∈ s.targetSet ctx ↔
      ∃ i, i < (s.group s.site.header.exitGroup).memberCount ∧ k = some i ∧
        node = (memberOf s.site.header.exitGroup i).node) ∧
    (ctx.mode = .normal → ctx.kind = .direct → s.targetSet ctx = [(ctx.ref, none)]) ∧
    (ctx.mode = .normal → ctx.kind = .group → (s.group ctx.ref).selection = .nearest →
      ∀ node k, (node, k) ∈ s.targetSet ctx ↔
        ∃ i, opened ctx.ref i ∧ k = some i ∧ node = (memberOf ctx.ref i).node) ∧
    (ctx.mode = .normal → ctx.kind = .group → (s.group ctx.ref).selection = .firstOpen →
      ∀ node k, (node, k) ∈ s.targetSet ctx ↔
        ∃ i, opened ctx.ref i ∧ (∀ j, j < i → ¬ opened ctx.ref j) ∧ k = some i ∧ node = (memberOf ctx.ref i).node) ∧
    (s.destClosed ctx = true ↔ ctx.mode = .normal ∧ ∃ gate, ctx.ownGate = some gate ∧ s.gate gate = .closed)

/-- RECORD_COMPLETE of a SEARCHING lane: a record with the request's and the context's fields, FOUND with the settled target,
its label and the member reached, or UNREACHABLE with totals of 0, stored in a slot or held. On a validated site the legs are
those of a route, as `State.RouteTo` writes it out: connected, usable, priced again, its costs summing to the label. That the row does nothing for
another lane is the model's choice (notes/assumptions/4.md), and that the whole search lies within it is the model's reading
(notes/assumptions/9.md). -/
def Obligations.RecordCompleteStoresTheRecord : Prop :=
  ∀ (s : State) (l : Fin 4) (q : Request) (ctx : SearchContext), s.Running → s.Canonical →
    ((s.lane l).state ≠ .searching → exec (.recordComplete l) s = .next s) ∧
    ((s.lane l).state = .searching → (s.lane l).request = some q → (s.lane l).context = some ctx →
      s.screen q.screen = .active l →
      let found := s.search (s.lane l) ctx
      ∃ t r, exec (.recordComplete l) s = .next t ∧ s.Completed t l q r ∧
        t = { s with dispatcher := { s.dispatcher with screens := t.dispatcher.screens }, lanes := t.lanes
                     store := t.store
                     link := { s.link with notices := t.link.notices, overrunMark := t.link.overrunMark
                                           dropped := t.link.dropped } } ∧
        r.tag = q.tag ∧ r.screen = q.screen ∧ r.destination = q.destination ∧ r.category = ctx.category ∧
        r.trimmed = found.1.trimmed ∧ r.egress = (s.lane l).egress ∧ r.destClosed = (s.lane l).destClosed ∧
        r.clockUnset = (s.lane l).clockUnset ∧ r.epoch = ctx.epoch ∧ r.generation = ctx.generation ∧
        (found.2 = none → r.status = .unreachable ∧ r.reached = none ∧ r.target = none ∧ r.totalTime = 0 ∧
          r.seconds = 0 ∧ r.minutes = 0 ∧ r.distance = 0 ∧ r.legs = [] ∧ r.summarised = false) ∧
        (∀ target label, found.2 = some (target, label) →
          r.status = .found ∧ r.target = some (target, (s.node target).floor) ∧ r.totalTime = label ∧
          r.seconds = (label + 5) / 10 ∧
          (∀ before k after, (s.lane l).targets = before ++ (target, k) :: after → (∀ x ∈ before, x.1 ≠ target) →
            r.reached = k) ∧
          let route := s.rebuild ctx found.1.labels target
          (s.SearchesSite ctx → s.RouteTo ctx route target label) ∧
          (r.legs, r.summarised) = s.checkLegs target (s.condense ctx.facing route) ∧
          r.distance = (route.map Traversal.length).sum))

/-- The totals of every record that the slots and the lanes hold are the sums over its legs, in every state that a step
gives, when the searching lanes search a validated site. Every step keeps that they do: in VALID and DRAINING the tables have
passed, every waiting request is of an enabled screen, and every search begins at a node of the site. -/
def Obligations.RecordsAddUpIsKept : Prop :=
  (∀ s t : State, s.RecordsAddUp → s.Canonical →
    (∀ l ctx, l < 4 → (s.lane l).state = .searching → (s.lane l).context = some ctx → s.SearchesSite ctx) →
    step s = .next t → t.RecordsAddUp) ∧
  (∀ s t : State, s.Canonical → s.RecordsInRange → s.Consistent → s.SiteValidated → step s = .next t →
    t.SiteValidated) ∧
  ∀ (s : State) (l : Nat) (ctx : SearchContext), s.Consistent → s.SiteValidated → l < 4 →
    (s.lane l).state = .searching → (s.lane l).context = some ctx → s.SearchesSite ctx

/-- A search whose heap was never full ends at a target of least travel time over all walks through usable traversals, or
finds that no walk reaches a target; a trimmed one still ends at a target by a walk of the time it gives. -/
def Obligations.SearchFindsTheLeastTime : Prop :=
  ∀ (s : State) (lane : Lane) (ctx : SearchContext), s.SearchesSite ctx → Table.wf .unseen lane.labels = true →
    let result := s.search lane ctx
    (∀ target label, result.2 = some (target, label) →
      (∃ k, (target, k) ∈ lane.targets) ∧ s.Walk ctx target label ∧
      (result.1.trimmed = false → ∀ node cost k, (node, k) ∈ lane.targets → s.Walk ctx node cost → label ≤ cost)) ∧
    (result.2 = none → result.1.trimmed = false →
      ∀ node cost k, (node, k) ∈ lane.targets → ¬ s.Walk ctx node cost)

/-- The pricing of a traversal: what makes it UNUSABLE, the base time of the class the walker meets, the congestion factor
weighted by the walker's aversion, and the clamp. A lane prices with the mode and the profile of its context, the site header,
the edge's record and its live closure, motion mode, gate and published level; it takes a node's edges from the node's slice of
the adjacency table, in order, and leaves the node by the other endpoint. That a moving edge without a motion mode counts as
not running is the model's choice (notes/assumptions/19.md). -/
def Obligations.TraversalsArePricedByTheRules : Prop :=
  (∀ (s : State) (ctx : SearchContext) (e : Nat) (ab : Bool),
    let record := s.edge e
    ∃ live : EdgeConditions,
      live.closure = s.closure e ∧ live.motion = s.motion e ∧
      (live.gateClosed = true ↔ ∃ gate, record.gate = some gate ∧ s.gate gate = .closed) ∧
      (record.channel = none → live.level = none) ∧
      (∀ channel, record.channel = some channel → live.level = some (s.published channel)) ∧
      s.priceUnder ctx e ab = price ctx.mode (s.profile ctx.profile) s.site.header record live ab) ∧
  (∀ (s : State) (u : Nat), (s.edgesOf u).length = (s.node u).adjacencyCount ∧
    ∀ i, i < (s.node u).adjacencyCount → (s.edgesOf u)[i]? = some (s.adjacent ((s.node u).adjacencyStart + i))) ∧
  (∀ (edge : Edge) (u : Nat), edge.a ≠ edge.b →
    (u = edge.a → edge.leave u = (edge.b, true)) ∧ (u = edge.b → edge.leave u = (edge.a, false))) ∧
  ∀ (mode : Mode) (p : Profile) (h : Header) (edge : Edge) (live : EdgeConditions) (ab : Bool),
    p.inRange = true → h.inRange = true → edge.inRange = true →
    let running : Prop := mode = .normal ∧ (live.motion = some .runAB ∨ live.motion = some .runBA)
    let escalator : Prop := edge.cls = .escalator ∧ running
    let travelator : Prop := edge.cls = .travelator ∧ running
    let stairs : Prop := edge.cls = .stairs ∨ (edge.cls = .escalator ∧ ¬ running)
    let walk : Prop := edge.cls = .walk ∨ (edge.cls = .travelator ∧ ¬ running)
    let f : Nat := match live.level with
      | none | some .clear | some .off => 16
      | some .busy => h.fBusy
      | some .crowded => h.fCrowded
      | some .unknown => h.fUnknown
    (price mode p h edge live ab = none ↔
      live.closure = .closed ∨ (mode = .normal ∧ live.gateClosed = true) ∨
      (mode = .egress ∧ edge.cls = .elevator) ∨
      (stairs ∧ p.stairs = false) ∨ (escalator ∧ p.escalator = false) ∨ (travelator ∧ p.travelator = false) ∨
      (edge.cls = .elevator ∧ p.elevator = false) ∨
      ((escalator ∨ travelator) ∧
        ((ab = false ∧ live.motion = some .runAB) ∨ (ab = true ∧ live.motion = some .runBA))) ∨
      ((escalator ∨ edge.cls = .elevator) ∧ edge.rideCode = 0)) ∧
    ∀ cost, price mode p h edge live ab = some cost → 1 ≤ cost ∧ cost ≤ 16383 ∧
      ∃ base time, IsCeil time (base * (16 + (f - 16) * p.aversion / 2)) 16 ∧ cost = max 1 (min time 16383) ∧
        (walk → IsCeil base (100 * edge.length) p.pace) ∧
        (edge.cls = .door → ∃ onFoot, IsCeil onFoot (100 * edge.length) p.pace ∧ base = onFoot + 20) ∧
        (stairs → IsCeil base (100 * edge.length * p.stairFactor) (16 * p.pace)) ∧
        (travelator → IsCeil base (100 * edge.length) (p.pace + 50)) ∧
        (escalator → base = 50 * edge.rideCode) ∧
        (edge.cls = .elevator → base = 50 * edge.rideCode + p.liftWait)

/-- The legs of a route: each traversal's heading, turn, kind and STOPPED flag; the first leg, which is the first traversal's
own; the merge of plain walking straight on past no landmark; and the leg-count check. -/
def Obligations.LegsFollowTheRoute : Prop :=
  ∀ (s : State) (facing target : Nat) (route : List Traversal),
    let headingOf (t : Traversal) : Option Nat :=
      if (s.edge t.edge).cls = .elevator then none
      else (s.edge t.edge).heading.map fun h => if t.ab then h else (h + 4) % 8
    let floor (n : Nat) : Nat := (s.node n).floor
    let own := s.ownLegs (some facing) route
    own.length = route.length ∧
    (∀ i t, route[i]? = some t → ∃ leg, own[i]? = some leg ∧
      leg.heading = headingOf t ∧
      (∀ new before, headingOf t = some new → before < 8 →
        (if i = 0 then some facing else (route[i - 1]?).bind headingOf) = some before →
        ∃ turn, turn < 8 ∧ leg.turn = some turn ∧ (before + turn) % 8 = new % 8) ∧
      (headingOf t = none ∨ (i ≠ 0 ∧ (route[i - 1]?).bind headingOf = none) → leg.turn = none) ∧
      (leg.stopped = true ↔ ((s.edge t.edge).cls = .escalator ∧ t.resolved = .stairs) ∨
        ((s.edge t.edge).cls = .travelator ∧ t.resolved = .walk)) ∧
      leg.kind = (match (s.edge t.edge).cls with
        | .walk => .walk
        | .door => .door
        | .travelator => .travelator
        | .stairs => if floor t.fromNode < floor t.toNode then .stairsUp else .stairsDown
        | .escalator => if floor t.fromNode < floor t.toNode then .escalatorUp else .escalatorDown
        | .elevator => if floor t.fromNode < floor t.toNode then .elevatorUp else .elevatorDown) ∧
      leg.distance = t.length ∧ leg.time = t.cost ∧ leg.endNode = t.toNode ∧ leg.endFloor = floor t.toNode ∧
      leg.landmark = (s.node t.toNode).landmark) ∧
    (route = [] → s.condense facing route = []) ∧
    (∀ t, route = [t] → s.condense facing route = own) ∧
    (∀ done t leg earlier current, route = done ++ [t] → own.getLast? = some leg →
      s.condense facing done = earlier ++ [current] → current.landmark = (s.node t.fromNode).landmark →
      (current.kind = .walk ∧ leg.kind = .walk ∧ leg.turn = some 0 ∧ (s.node t.fromNode).landmark = none →
        s.condense facing route = earlier ++ [{ current with
          distance := current.distance + leg.distance, time := current.time + leg.time
          endNode := leg.endNode, endFloor := leg.endFloor, landmark := leg.landmark }]) ∧
      (¬(current.kind = .walk ∧ leg.kind = .walk ∧ leg.turn = some 0 ∧ (s.node t.fromNode).landmark = none) →
        s.condense facing route = earlier ++ [current, leg])) ∧
    (∀ legs : List Leg,
      (legs.length ≤ 40 → s.checkLegs target legs = (legs, false)) ∧
      (∀ fortieth rest, 40 < legs.length → legs.drop 39 = fortieth :: rest →
        s.checkLegs target legs = (legs.take 39 ++
          [{ kind := .onward, stopped := false, turn := fortieth.turn, heading := fortieth.heading
             distance := ((legs.drop 39).map Leg.distance).sum, time := ((legs.drop 39).map Leg.time).sum
             endNode := target, endFloor := floor target, landmark := (s.node target).landmark }], true)))

/-! ### The Flow Monitor -/

/-- A poll cycle: begun by the sample timer with the polled channel of lowest number; after each poll frame the reply window
opens; each sample, good or missed, leads to the next channel, and the last one ends the cycle, which processes the samples,
those of REFERENCE channels first, and offers each channel's notices as it is processed: FLOW STALE, FLOW RESEED, then FLOW
LEVEL. That the expiry of a stopped timer does nothing (notes/assumptions/4.md) and that an expiry during a cycle only starts
the timer again (notes/assumptions/19.md) are the model's choice. -/
def Obligations.PollCyclesTakeEveryChannel : Prop :=
  ∀ s : State, s.Running →
    (s.flow.timer = none → exec .sampleTimerExpiry s = .next s) ∧
    (∀ length, s.flow.timer = some length → s.flow.cycle ≠ none →
      exec .sampleTimerExpiry s = .next { s with flow :=
        { s.flow with timer := some s.link.parameters.sampleInterval } }) ∧
    (∀ length, s.flow.timer = some length → s.flow.cycle = none →
      ((∀ c, c < 64 → (s.channel c).state = .off) →
        exec .sampleTimerExpiry s = .next { s with flow :=
          { s.flow with timer := some s.link.parameters.sampleInterval } }) ∧
      (∀ c, c < 64 → (s.channel c).state ≠ .off → (∀ d, d < c → (s.channel d).state = .off) →
        ∃ t rest, exec .sampleTimerExpiry s = .next t ∧
          (∀ d, d ∈ rest ↔ c < d ∧ d < 64 ∧ (s.channel d).state ≠ .off) ∧ rest.Pairwise (· < ·) ∧
          t = { s with flow := { s.flow with
            timer := some s.link.parameters.sampleInterval
            cycle := some { current := c, phase := .sending, rest := rest, samples := [] } } } ∧
          t.clde = true)) ∧
    (∀ cycle, s.flow.cycle = some cycle → cycle.phase = .sending →
      exec .pollSent s = .next { s with flow := { s.flow with cycle := some { cycle with phase := .listening } } }) ∧
    (∀ cycle, s.flow.cycle = some cycle → cycle.phase = .listening →
      ∀ (reply : Option (Byte × Byte × Byte × Byte × Byte)) (sample : Option Nat),
      (∀ b0 b1 b2 b3 b4, reply = some (b0, b1, b2, b3, b4) →
        let good : Prop := b0 = 0x5B ∧ (b0.toNat + b1.toNat + b2.toNat + b3.toNat + b4.toNat) % 256 = 0 ∧
          b1.toNat = cycle.current ∧ b2.toNat + 256 * b3.toNat ≤ 1023
        (good → sample = some (b2.toNat + 256 * b3.toNat)) ∧ (¬ good → sample = none)) →
      (reply = none → sample = none) →
      let c : Instr := match reply with
        | some (b0, b1, b2, b3, b4) => .counterReply b0 b1 b2 b3 b4
        | none => .replyTimeout
      let samples := cycle.samples ++ [(cycle.current, sample)]
      (∀ next rest, cycle.rest = next :: rest →
        exec c s = .next { s with flow := { s.flow with
          cycle := some { current := next, phase := .sending, rest := rest, samples := samples } } }) ∧
      (cycle.rest = [] → (samples.map Prod.fst).Nodup → s.Canonical → ∃ t, exec c s = .next t ∧
        t.flow.cycle = none ∧ t.flow.timer = s.flow.timer ∧
        (∀ i, (∀ x ∈ samples, x.1 ≠ i) → t.channel i = s.channel i) ∧
        (∀ i x, (i, x) ∈ samples → (s.channelConfig i).role = .reference →
          t.channel i = (processSample (s.channelConfig i) (s.channel i) x 0).channel) ∧
        (∀ i x, (i, x) ∈ samples → (s.channelConfig i).role = .independent →
          t.channel i = (processSample (s.channelConfig i) (s.channel i) x 0).channel) ∧
        (∀ i x, (i, x) ∈ samples → (s.channelConfig i).role = .follower →
          (s.channelConfig (s.channelConfig i).reference).role = .reference →
          t.channel i = (processSample (s.channelConfig i) (s.channel i) x
            (t.channel (s.channelConfig i).reference).change).channel) ∧
        ((∀ x ∈ samples, (s.channelConfig x.1).role = .follower →
            (s.channelConfig (s.channelConfig x.1).reference).role = .reference) →
          let references := samples.filter fun x => (s.channelConfig x.1).role = .reference
          let others := samples.filter fun x => (s.channelConfig x.1).role ≠ .reference
          t.link = s.link.offerAll ((references ++ others).flatMap fun x =>
            let i := x.1
            let before := s.channel i
            let delta : Int := if (s.channelConfig i).role = .follower then
              (t.channel (s.channelConfig i).reference).change else 0
            let reseeded := (processSample (s.channelConfig i) before x.2 delta).reseeded
            let after := t.channel i
            (if after.level = .unknown ∧ before.level ≠ .unknown then
              [Notice.flowStale i before.level after.missed] else []) ++
            (if reseeded = true then [Notice.flowReseed i after.average after.level] else []) ++
            (if after.level ≠ before.level ∧ after.level ≠ .unknown then
              [Notice.flowLevel i before.level after.level] else []))) ∧
        t = { s with flow := t.flow
                     link := { s.link with notices := t.link.notices, overrunMark := t.link.overrunMark
                                           dropped := t.link.dropped } }))

/-- One sample of a channel: the eight steps on a good sample in TRACKING, seeding, the restart from STALE, and a missed
sample with the stale limit. -/
def Obligations.SamplesAreProcessedByTheEightSteps : Prop :=
  ∀ (c : ChannelConfig) (ch : Channel) (count : Nat) (delta : Int), c.inRange = true →
    let sample : Int := 16 * (count : Int)
    let restarted (average : Int) : Channel :=
      { state := .tracking, level := .clear, filter := sample, average := average, activation := sample, debounce := 0
        plateau := 0, missed := 0, change := 0, lastCount := some count }
    (ch.state = .seeding → (processSample c ch (some count) delta).channel = restarted sample) ∧
    (ch.state = .stale → (processSample c ch (some count) delta).channel = restarted ch.average) ∧
    ((processSample c ch none delta).reseeded = false ∧
      (ch.missed = c.staleLimit → (processSample c ch none delta).channel = { ch with change := 0 }) ∧
      (ch.missed + 1 < c.staleLimit →
        (processSample c ch none delta).channel = { ch with change := 0, missed := ch.missed + 1 }) ∧
      (ch.missed + 1 = c.staleLimit → ch.state = .tracking →
        (processSample c ch none delta).channel =
          { ch with change := 0, missed := ch.missed + 1, level := .unknown, state := .stale }) ∧
      (ch.missed + 1 = c.staleLimit → ch.state = .seeding →
        (processSample c ch none delta).channel =
          { ch with change := 0, missed := ch.missed + 1, level := .unknown })) ∧
    (ch.state = .tracking → ch.level = .clear ∨ ch.level = .busy ∨ ch.level = .crowded →
      let after := (processSample c ch (some count) delta).channel
      let reseeded := (processSample c ch (some count) delta).reseeded
      let f := ch.filter + (sample - ch.filter).fdiv (2 ^ c.filterShift)
      let d := f - ch.average
      let activation := ch.activation + (sample - ch.activation).fdiv (2 ^ c.activationShift)
      let isCrowded : Prop := 16 * (c.crowded : Int) ≤ d ∨ 16 * (c.ceiling : Int) ≤ f
      let isBusy : Prop := ¬ isCrowded ∧ 16 * (c.busy : Int) ≤ d
      let holdsCrowded : Prop :=
        16 * ((c.crowded : Int) - c.hysteresis) ≤ d ∨ 16 * ((c.ceiling : Int) - c.hysteresis) ≤ f
      let holdsBusy : Prop := 16 * ((c.busy : Int) - c.hysteresis) ≤ d
      ∃ (level : Level) (debounce : Nat) (average change : Int) (plateau : Nat),
        -- steps 4 and 5
        (ch.level = .crowded → (holdsCrowded → level = .crowded ∧ debounce = 0) ∧
          (¬ holdsCrowded → debounce = 0 ∧ (holdsBusy → level = .busy) ∧ (¬ holdsBusy → level = .clear))) ∧
        (ch.level = .busy → ¬ holdsBusy → level = .clear ∧ debounce = 0) ∧
        ((ch.level = .busy ∧ holdsBusy ∧ isCrowded) ∨ (ch.level = .clear ∧ (isBusy ∨ isCrowded)) →
          (ch.debounce + 1 = c.debounce → debounce = 0 ∧ (isCrowded → level = .crowded) ∧ (isBusy → level = .busy)) ∧
          (ch.debounce + 1 ≠ c.debounce → debounce = ch.debounce + 1 ∧ level = ch.level)) ∧
        ((ch.level = .busy ∧ holdsBusy ∧ ¬ isCrowded) ∨ (ch.level = .clear ∧ ¬ isBusy ∧ ¬ isCrowded) →
          debounce = 0 ∧ level = ch.level) ∧
        -- step 6
        (level = .clear → average = ch.average + (f - ch.average).fdiv (2 ^ c.averageShift) ∧
          change = average - ch.average) ∧
        (level ≠ .clear → change = 0 ∧ (c.role ≠ .follower → average = ch.average) ∧
          (c.role = .follower → average = max 0 (min (ch.average + (delta * c.weight).fdiv 4096) 16368))) ∧
        -- steps 7 and 8
        (level = .clear ∨ c.plateauSamples = 0 → plateau = 0) ∧
        (level ≠ .clear → c.plateauSamples ≠ 0 →
          (((f - activation).natAbs : Int) < 16 * c.settleBand → plateau = ch.plateau + 1) ∧
          (16 * (c.settleBand : Int) ≤ (f - activation).natAbs → plateau = 0)) ∧
        (reseeded = true ↔ level ≠ .clear ∧ c.plateauSamples ≠ 0 ∧ plateau = c.plateauSamples) ∧
        (reseeded = false → after = { state := .tracking, level := level, filter := f, average := average
                                      activation := activation, debounce := debounce, plateau := plateau, missed := 0
                                      change := change, lastCount := some count }) ∧
        (reseeded = true → after = { state := .tracking, level := if 16 * (c.ceiling : Int) ≤ f then .crowded else .clear
                                     filter := f, average := f, activation := activation, debounce := 0, plateau := 0
                                     missed := 0, change := change, lastCount := some count }))

/-! ### Egress Control -/

/-- EGRESS ENTER in NORMAL enters EGRESS with cause DRILL, EGRESS RESUME with the filtered level CLEAR returns to NORMAL, and
each has the lanes hand their requests back. ALREADY in the mode asked for, and ALARM_ACTIVE while the level is ASSERTED.
The order in which
entries beyond 32 are dropped is the model's reading (notes/assumptions/17.md). -/
def Obligations.DrillAndResumeHandTheWorkBack : Prop :=
  ∀ s : State, s.Started → s.Canonical → s.Outstanding → s.dispatcher.queue.length ≤ 32 →
    (s.egress.mode = .egress → exec (.egressEnter []) s = .next (s.answers 0x95 [3])) ∧
    (s.egress.mode = .normal → exec (.egressResume []) s = .next (s.answers 0x96 [3])) ∧
    (s.egress.mode = .egress → s.egress.asserted = true → exec (.egressResume []) s = .next (s.answers 0x96 [25])) ∧
    (s.egress.mode = .normal → ∃ u, exec (.egressEnter []) s = .next { u with link := u.link.answered 0x95 [0] } ∧
      u.egress.asserted = s.egress.asserted ∧ u.egress.measuring = s.egress.measuring ∧
      s.EntersEgress u .drill s.egress.asserted) ∧
    (s.egress.mode = .egress → s.egress.asserted = false → ∃ u,
      exec (.egressResume []) s = .next { u with link := u.link.answered 0x96 [0] } ∧
      u.egress = { s.egress with mode := .normal, cause := none } ∧ u.site = s.site ∧ u.flow = s.flow ∧
      (s.site.state = .valid →
        s.HandedBack u false (s.handed.filter fun r => s.Current r) (s.handed.filter fun r => ¬ s.Current r) []
          [.egress .resumed .normal none false]) ∧
      (s.site.state ≠ .valid → s.HandedBack u false [] s.handed [] [.egress .resumed .normal none false]))

/-- A change of the ALARM pin starts or discards the measure; a measure that runs to its end takes the level. ASSERTED in
NORMAL enters EGRESS with cause ALARM; either change in EGRESS is an EGRESS notice only. The rows of a level that is not being
measured do nothing, which is the model's choice (notes/assumptions/4.md); the order in which entry into EGRESS drops requests
is its reading (notes/assumptions/17.md). -/
def Obligations.AlarmFollowsTheFilteredLevel : Prop :=
  ∀ s : State, s.Running →
    (∃ t, exec .alarmPinChange s = .next t ∧ t.alarmPin = !s.alarmPin ∧
      t = { s with egress := { s.egress with measuring := !s.egress.measuring } }) ∧
    (s.egress.measuring = false ∨ s.egress.asserted = true → exec .alarmAsserted s = .next s) ∧
    (s.egress.measuring = false ∨ s.egress.asserted = false → exec .alarmClear s = .next s) ∧
    (s.egress.measuring = true → s.egress.asserted = false →
      (s.egress.mode = .normal → s.Canonical → s.Outstanding → s.dispatcher.queue.length ≤ 32 → ∃ u, exec .alarmAsserted s = .next u ∧
        u.egress.asserted = true ∧ u.egress.measuring = false ∧ s.EntersEgress u .alarm true) ∧
      (s.egress.mode = .egress → exec .alarmAsserted s = .next { s with
        egress := { s.egress with asserted := true, measuring := false }
        link := s.link.offer (.egress .alarmAsserted .egress s.egress.cause true) })) ∧
    (s.egress.measuring = true → s.egress.asserted = true →
      (s.egress.mode = .normal → exec .alarmClear s = .next { s with
        egress := { s.egress with asserted := false, measuring := false } }) ∧
      (s.egress.mode = .egress → exec .alarmClear s = .next { s with
        egress := { s.egress with asserted := false, measuring := false }
        link := s.link.offer (.egress .alarmClear .egress s.egress.cause false) }))

/-! ### Site transfers -/

/-- SITE DUMP's checks, the image and its check from the tables in their order, and the course of a dump: after READY_WAIT the
sectors in ascending order, then the pages from the second on, the first page last; its end is WRITTEN. A load leaves
READY_WAIT for its header. A poll that runs past its allowance ends a transfer with the stage and the address reached. That
address is the image's address plus the offset, which is the model's reading (notes/assumptions/14.md). Its choices are: the
byte offset is the start of the sector or page under way (notes/assumptions/21.md); SITE DUMP is accepted in EGRESS too
(notes/assumptions/25.md); a unit that has ended holds no address and no length (notes/assumptions/26.md); a dump holds no
position (notes/assumptions/27.md). -/
def Obligations.DumpsEraseThenProgramTheImage : Prop :=
  (∀ (s : State) (address : Nat), s.Started → address < 4294967296 →
    let h := s.site.header
    let length := 32 + 64 * 4 + 8 * 12 + 64 * 12 + 64 * 32 + 8 * h.nodeCount + 20 * h.edgeCount +
      4 * h.adjacencyCount + 8 * h.groupCount + 4 * h.memberCount + 8 * h.directoryCount + 12 * h.scheduleCount
    let c := Instr.siteDump (le32 address)
    (s.transfer.state ≠ .idle → exec c s = .next (s.answers 0x8B [23])) ∧
    (s.transfer.state = .idle →
      (s.site.state ≠ .valid → exec c s = .next (s.answers 0x8B [11])) ∧
      (s.site.state = .valid →
        (address % 4096 ≠ 0 → exec c s = .next (s.answers 0x8B [21])) ∧
        (address % 4096 = 0 → 16777216 < address + length → exec c s = .next (s.answers 0x8B [22])) ∧
        (address % 4096 = 0 → address + length ≤ 16777216 → ∃ check,
          check = BitVec.ofNat 16 ((((s.site.image.drop 32).map BitVec.toNat).sum)) ∧ exec c s = .next { s.answers 0x8B [0] with
          transfer := { state := .readyWait, operation := some .dump, address := some address
                        imageLength := some length, check := check, expected := 0, offset := 0, position := none
                        sent := [.readStatus], last := s.transfer.last } })))) ∧
  (∀ s : State,
    let h := s.site.header
    s.site.image.drop 32 =
      ([(.nodes, h.nodeCount), (.edges, h.edgeCount), (.adjacency, h.adjacencyCount), (.groups, h.groupCount),
        (.members, h.memberCount), (.directory, h.directoryCount), (.gates, 64), (.profiles, 8), (.screens, 64),
        (.channels, 64), (.schedule, h.scheduleCount)] : List (TableId × Nat)).flatMap fun table =>
          (List.range table.2).flatMap fun i => (s.site.record table.1 i).bytes) ∧
  (∀ s : State, s.RecordsInRange → s.site.image.length = s.site.header.imageLength ∧
    headerOf (s.site.image.take 32) = s.site.header ∧
    longAt s.site.image 24 = s.site.header.imageLength ∧
    wordAt s.site.image 28 = (((s.site.image.drop 32).map BitVec.toNat).sum) % 65536 ∧
    ∀ address, address + s.site.header.imageLength ≤ 16777216 → headerFailure (s.site.image.take 32) address = none) ∧
  (∀ (s : State) (address length : Nat), s.Running → s.transfer.address = some address →
    s.transfer.imageLength = some length → s.transfer.operation = some .dump →
    let erasing (at_ : Nat) : State := { s with transfer := { s.transfer with
      state := .erase, offset := at_, sent := [.writeEnable, .sectorErase (address + at_), .readStatus] } }
    let programming (at_ : Nat) : State := { s with transfer := { s.transfer with
      state := .program, offset := at_
      sent := [.writeEnable, .pageProgram (address + at_) ((s.site.image.drop at_).take 256), .readStatus] } }
    let o := s.transfer.offset
    (s.transfer.state = .readyWait → exec .busyClear s = .next (erasing 0)) ∧
    (s.transfer.state = .erase →
      (o + 4096 < length → exec .busyClear s = .next (erasing (o + 4096))) ∧
      (length ≤ o + 4096 → 256 < length → exec .busyClear s = .next (programming 256))) ∧
    (s.transfer.state = .program →
      (o ≠ 0 → o + 256 < length → exec .busyClear s = .next (programming (o + 256))) ∧
      (o ≠ 0 → length ≤ o + 256 → exec .busyClear s = .next (programming 0)) ∧
      (o = 0 → exec .busyClear s = .next (s.dumpEnded .written))) ∧
    (s.transfer.state = .readyWait ∨ s.transfer.state = .erase ∨ s.transfer.state = .program →
      exec .flashTimeout s = .next (s.dumpEnded (.flashTimeout s.transfer.state (address + o))))) ∧
  ∀ (s : State) (address : Nat), s.Running → s.transfer.address = some address →
    s.transfer.operation = some .load → s.transfer.state = .readyWait → s.transfer.offset = 0 →
    exec .busyClear s = .next { s with transfer := { s.transfer with state := .readHeader, sent := [.read address] } } ∧
    exec .flashTimeout s = .next (s.loadFailed (.flashTimeout .readyWait address))

/-- HEADER_READ judges a load's header by H1 to H5 in order; RECORD_READ writes a record in range and goes on to the next
one of the image, in its table or the first of the next table that has one, ends BAD_RECORD on one out of range, and after the
last one compares the running check and validates. A load that ends VALID enters VALID with its notices, TRANSFER DONE last.
That an image without schedule entries ends with the last flow channel is the model's reading (notes/assumptions/22.md); what
a unit that has ended holds is its choice (notes/assumptions/26.md), and so is that `State.EntersValid` has an edge at or above
the edge count hold no motion mode (notes/assumptions/29.md). -/
def Obligations.LoadsJudgeTheHeaderAndTheRecords : Prop :=
  let counts (h : Header) : List (TableId × Nat) :=
    [(.nodes, h.nodeCount), (.edges, h.edgeCount), (.adjacency, h.adjacencyCount), (.groups, h.groupCount),
     (.members, h.memberCount), (.directory, h.directoryCount), (.gates, 64), (.profiles, 8), (.screens, 64),
     (.channels, 64), (.schedule, h.scheduleCount)]
  let firstOf (tables : List (TableId × Nat)) : Option (TableId × Nat) :=
    (tables.find? fun x => 0 < x.2).map fun x => (x.1, 0)
  (∀ (s : State) (bytes : List Byte) (address : Nat), s.Running → s.transfer.state = .readHeader →
    s.transfer.operation = some .load → s.transfer.address = some address → bytes.length = 32 →
    let h : Header :=
      { nodeCount := wordAt bytes 4, edgeCount := wordAt bytes 6, adjacencyCount := wordAt bytes 8
        groupCount := wordAt bytes 10, memberCount := wordAt bytes 12, directoryCount := wordAt bytes 14
        scheduleCount := wordAt bytes 16, exitGroup := wordAt bytes 18, fBusy := byteAt bytes 20
        fCrowded := byteAt bytes 21, fUnknown := byteAt bytes 22 }
    let length := 32 + 64 * 4 + 8 * 12 + 64 * 12 + 64 * 32 + 8 * h.nodeCount + 20 * h.edgeCount +
      4 * h.adjacencyCount + 8 * h.groupCount + 4 * h.memberCount + 8 * h.directoryCount + 12 * h.scheduleCount
    let marker : Prop := byteAt bytes 0 = 0x48 ∧ byteAt bytes 1 = 0x50
    let format : Prop := byteAt bytes 2 = 1
    let ranges : Prop := h.inRange = true
    let lengthRight : Prop := longAt bytes 24 = length
    let fits : Prop := address + longAt bytes 24 ≤ 16777216
    let c := Instr.headerRead bytes
    (¬ marker → exec c s = .next (s.loadFailed (.badHeader .H1))) ∧
    (marker → ¬ format → exec c s = .next (s.loadFailed (.badHeader .H2))) ∧
    (marker → format → ¬ ranges → exec c s = .next (s.loadFailed (.badHeader .H3))) ∧
    (marker → format → ranges → ¬ lengthRight → exec c s = .next (s.loadFailed (.badHeader .H4))) ∧
    (marker → format → ranges → lengthRight → ¬ fits →
      exec c s = .next (State.loadFailed { s with transfer := { s.transfer with imageLength := some length } }
        (.badHeader .H5))) ∧
    (marker → format → ranges → lengthRight → fits → ∃ t, exec c s = .next t ∧
      t.transfer.position = firstOf (counts h) ∧
      t = { s with
        site := { s.site with header := h }
        transfer := { s.transfer with
          state := .readTables, imageLength := some length, expected := BitVec.ofNat 16 (wordAt bytes 28), offset := 32
          position := t.transfer.position, sent := [.read (address + 32)] } })) ∧
  ∀ (s : State) (bytes : List Byte) (table : TableId) (i : Nat), s.Running → s.transfer.state = .readTables →
    s.transfer.operation = some .load → s.transfer.position = some (table, i) → bytes.length = table.recordBytes →
    let check := s.transfer.check + BitVec.ofNat 16 ((bytes.map BitVec.toNat).sum)
    let counted : TransferUnit := { s.transfer with check := check, offset := s.transfer.offset + bytes.length }
    (Record.ofBytes table bytes = none →
      exec (.recordRead bytes) s = .next (State.loadFailed { s with transfer := counted } (.badRecord table i))) ∧
    ∀ r, Record.ofBytes table bytes = some r →
      let written : State := { s with site := s.site.setRecord i r, transfer := counted }
      let next : Option (TableId × Nat) := match (counts s.site.header).dropWhile fun x => x.1 ≠ table with
        | [] => none
        | (_, count) :: rest => if i + 1 < count then some (table, i + 1) else firstOf rest
      (∀ position, next = some position → exec (.recordRead bytes) s =
        .next { written with transfer := { counted with position := some position } }) ∧
      (i + 1 < s.site.header.recordsOf table → table ≠ .header → exec (.recordRead bytes) s =
        .next { written with transfer := { counted with position := some (table, i + 1) } }) ∧
      (next = none →
        let last : State := { written with transfer := { counted with position := none, state := .validate } }
        (check ≠ s.transfer.expected →
          exec (.recordRead bytes) s = .next (last.loadFailed (.checkMismatch check s.transfer.expected))) ∧
        (∀ f, check = s.transfer.expected → last.site.firstFailure = some f →
          exec (.recordRead bytes) s = .next (last.loadFailed (.invalid f))) ∧
        (check = s.transfer.expected → last.site.firstFailure = none → ∃ t, exec (.recordRead bytes) s = .next t ∧
          t.site = { last.site with state := .valid, generation := s.site.generation + 1 } ∧
          t.conditions.epoch = s.conditions.epoch + 1 ∧ t.conditions.turn = .idle ∧
          t.conditions.timer = some s.link.parameters.turnPeriod ∧
          t.flow.timer = some s.link.parameters.sampleInterval ∧ t.flow.cycle = none ∧
          (∀ c, c < 64 → t.published c = if (t.channelConfig c).enabled then .clear else .off) ∧
          t.transfer.state = .idle ∧ t.transfer.operation = none ∧ t.transfer.last = some (.load, .valid)) ∧
        (check = s.transfer.expected → last.site.firstFailure = none → ¬ s.Searching →
          ∃ u, last.EntersValid u .load ∧ exec (.recordRead bytes) s = .next { u with
            transfer := { state := .idle, operation := none, address := none, imageLength := none, check := check
                          expected := 0, offset := 0, position := none, sent := [], last := some (.load, .valid) }
            link := u.link.offer (.transferDone .load .valid (s.transfer.address.getD 0) s.transfer.imageLength
              (some (s.site.generation + 1))) }))

/-! ### Invariants -/

/-- Every table of the part stays in its one canonical form, and every record of the site tables in range. -/
def Obligations.TablesStayCanonicalAndInRange : Prop :=
  ∀ s t : State, s.Canonical → s.RecordsInRange → step s = .next t → t.Canonical ∧ t.RecordsInRange

/-- The queues and lists keep their capacities and hold nothing twice, the receiver holds as much of a frame as its state
says, and the parameters, the pass counts and the flow values keep their ranges, a channel's counts those of its settings. -/
def Obligations.QueuesAndValuesStayBounded : Prop :=
  ∀ s t : State, s.Canonical → s.RecordsInRange → s.Consistent → s.ListsBounded → s.link.Bounded →
    s.link.parameters.InRange → s.flow.InRange → s.CountsFollowSettings → step s = .next t →
    t.ListsBounded ∧ t.link.Bounded ∧ t.link.parameters.InRange ∧ t.flow.InRange ∧ t.CountsFollowSettings

/-- What the blocks hold together stays so: the clock and the mode with its cause, the drain, the timers and the transfer
with the site state, and searching lanes in VALID and DRAINING only. -/
def Obligations.BlocksStayConsistent : Prop :=
  ∀ s t : State, s.Canonical → s.Consistent → step s = .next t → t.Consistent

/-- Each screen keeps at most one request or record, found where its state says. -/
def Obligations.EveryRequestIsAccountedFor : Prop :=
  ∀ s t : State, s.Canonical → s.Outstanding → step s = .next t → t.Outstanding

/-- No turn, no table change and no change of mode passes under a search: each SEARCHING lane's context is that of the
present epoch, generation and mode. -/
def Obligations.SearchesRunUnderOneEpoch : Prop :=
  ∀ s t : State, s.Canonical → s.Consistent → s.Outstanding → s.SearchesCurrent → step s = .next t → t.SearchesCurrent

/-- The part after a power-on reset meets the invariants, at every level of its straps and of the ALARM pin; and so does
`State.reset`, which the model takes with those levels low (notes/assumptions/1.md). -/
def Obligations.ResetMeetsTheInvariants : Prop :=
  (∀ (rate : BitVec 2) (bootld alarm : Bool) (s : State), ∃ t, exec (.powerOnReset rate bootld alarm) s = .next t ∧
    t.Canonical ∧ t.RecordsInRange ∧ t.ListsBounded ∧ t.link.Bounded ∧ t.link.parameters.InRange ∧ t.flow.InRange ∧
    t.CountsFollowSettings ∧ t.Consistent ∧ t.Outstanding ∧ t.SearchesCurrent ∧ t.SiteValidated ∧ t.RecordsAddUp) ∧
  State.reset.Canonical ∧ State.reset.RecordsInRange ∧ State.reset.ListsBounded ∧ State.reset.link.Bounded ∧
    State.reset.link.parameters.InRange ∧ State.reset.flow.InRange ∧ State.reset.CountsFollowSettings ∧
    State.reset.Consistent ∧ State.reset.Outstanding ∧ State.reset.SearchesCurrent ∧ State.reset.SiteValidated ∧
    State.reset.RecordsAddUp
end

