-- ==== Sys2Proof/Laws/Bytes.lean ====
section
/-! SUPPORT. Reading the numbers of a payload, and the numbers written little-endian (R179). -/

namespace Sys2Proof.Machine

@[simp] theorem byteAt_nil (n : Nat) : byteAt [] n = 0 := by simp [byteAt, ofLe]

@[simp] theorem byteAt_cons_zero (b : Byte) (bytes : List Byte) : byteAt (b :: bytes) 0 = b.toNat := by
  simp [byteAt, ofLe]

@[simp] theorem byteAt_cons_succ (b : Byte) (bytes : List Byte) (n : Nat) :
    byteAt (b :: bytes) (n + 1) = byteAt bytes n := by
  simp [byteAt]

@[simp] theorem wordAt_cons_zero (b c : Byte) (bytes : List Byte) :
    wordAt (b :: c :: bytes) 0 = b.toNat + 256 * c.toNat := by
  simp [wordAt, ofLe]

@[simp] theorem wordAt_cons_succ (b : Byte) (bytes : List Byte) (n : Nat) :
    wordAt (b :: bytes) (n + 1) = wordAt bytes n := by
  simp [wordAt]

@[simp] theorem longAt_cons_zero (b c d e : Byte) (bytes : List Byte) :
    longAt (b :: c :: d :: e :: bytes) 0 = b.toNat + 256 * (c.toNat + 256 * (d.toNat + 256 * e.toNat)) := by
  simp [longAt, ofLe]

@[simp] theorem longAt_cons_succ (b : Byte) (bytes : List Byte) (n : Nat) :
    longAt (b :: bytes) (n + 1) = longAt bytes n := by
  simp [longAt]

theorem byteAt_le8 {n : Nat} (h : n < 256) (rest : List Byte) : byteAt (le8 n ++ rest) 0 = n := by
  simp [le8]; omega

theorem wordAt_le16 {n : Nat} (h : n < 65536) (rest : List Byte) : wordAt (le16 n ++ rest) 0 = n := by
  simp [le16]; omega

theorem longAt_le32 {n : Nat} (h : n < 4294967296) (rest : List Byte) : longAt (le32 n ++ rest) 0 = n := by
  simp [le32]; omega

/-- R158, R164: the length of an image is its header, its fixed tables, and its counted tables up to their counts. -/
theorem Header.imageLength_eq (h : Header) :
    h.imageLength = 32 + 64 * 4 + 8 * 12 + 64 * 12 + 64 * 32 + 8 * h.nodeCount + 20 * h.edgeCount +
      4 * h.adjacencyCount + 8 * h.groupCount + 4 * h.memberCount + 8 * h.directoryCount + 12 * h.scheduleCount := by
  simp [Header.imageLength, TableId.imageOrder, Header.recordsOf, TableId.recordBytes, Config.headerBytes]
  omega

end Sys2Proof.Machine
end

