-- ==== Sys2Proof/Laws/Cost.lean ====
section
/-! SUPPORT. The pricing of a traversal: rounding up, and the bounds of a cost (R29 to R33). -/

namespace Sys2Proof.Machine

/-- Division rounded up gives the ceiling. -/
theorem ceilDiv_isCeil (a : Nat) {b : Nat} (hb : 0 < b) : IsCeil (ceilDiv a b) a b := by
  unfold IsCeil ceilDiv
  have h := Nat.div_add_mod (a + b - 1) b
  have h2 := Nat.mod_lt (a + b - 1) hb
  have : b * ((a + b - 1) / b) = ((a + b - 1) / b) * b := Nat.mul_comm _ _
  constructor <;> omega

/-- A traversal has a price exactly when it is usable. -/
theorem price_eq_none_iff (mode : Mode) (p : Profile) (h : Header) (edge : Edge) (live : EdgeConditions) (ab : Bool) :
    price mode p h edge live ab = none ↔ usable mode p edge live ab = false := by
  unfold price; split <;> simp_all

theorem clampCost_pos (t : Nat) : 1 ≤ clampCost t := by unfold clampCost; omega

theorem clampCost_le (t : Nat) : clampCost t ≤ 16383 := by unfold clampCost; omega

end Sys2Proof.Machine
end

