-- ==== Sys2Proof/Laws/State.lean ====
section
/-! SUPPORT. What each update of the state leaves in each field and under each reader, true by unfolding, so that no proof
unfolds an update. -/

namespace Sys2Proof.Machine

/-! ### State.setScreen -/

section

variable (s : State) (n : Nat) (v : ScreenStatus)

@[simp] theorem State.setScreen_pending : (s.setScreen n v).pending = s.pending := rfl
@[simp] theorem State.setScreen_pins : (s.setScreen n v).pins = s.pins := rfl
@[simp] theorem State.setScreen_site : (s.setScreen n v).site = s.site := rfl
@[simp] theorem State.setScreen_transfer : (s.setScreen n v).transfer = s.transfer := rfl
@[simp] theorem State.setScreen_conditions : (s.setScreen n v).conditions = s.conditions := rfl
@[simp] theorem State.setScreen_schedule : (s.setScreen n v).schedule = s.schedule := rfl
@[simp] theorem State.setScreen_flow : (s.setScreen n v).flow = s.flow := rfl
@[simp] theorem State.setScreen_lanes : (s.setScreen n v).lanes = s.lanes := rfl
@[simp] theorem State.setScreen_store : (s.setScreen n v).store = s.store := rfl
@[simp] theorem State.setScreen_egress : (s.setScreen n v).egress = s.egress := rfl
@[simp] theorem State.setScreen_link : (s.setScreen n v).link = s.link := rfl
@[simp] theorem State.setScreen_dispatcher_queue : (s.setScreen n v).dispatcher.queue = s.dispatcher.queue := rfl
@[simp] theorem State.setScreen_dispatcher_screens : (s.setScreen n v).dispatcher.screens = Table.set .idle s.dispatcher.screens n v := rfl
@[simp] theorem State.setScreen_node (i : Nat) : (s.setScreen n v).node i = s.node i := rfl
@[simp] theorem State.setScreen_edge (i : Nat) : (s.setScreen n v).edge i = s.edge i := rfl
@[simp] theorem State.setScreen_adjacent (i : Nat) : (s.setScreen n v).adjacent i = s.adjacent i := rfl
@[simp] theorem State.setScreen_group (i : Nat) : (s.setScreen n v).group i = s.group i := rfl
@[simp] theorem State.setScreen_member (i : Nat) : (s.setScreen n v).member i = s.member i := rfl
@[simp] theorem State.setScreen_directoryEntry (i : Nat) : (s.setScreen n v).directoryEntry i = s.directoryEntry i := rfl
@[simp] theorem State.setScreen_gateDefault (i : Nat) : (s.setScreen n v).gateDefault i = s.gateDefault i := rfl
@[simp] theorem State.setScreen_profile (i : Nat) : (s.setScreen n v).profile i = s.profile i := rfl
@[simp] theorem State.setScreen_screenRecord (i : Nat) : (s.setScreen n v).screenRecord i = s.screenRecord i := rfl
@[simp] theorem State.setScreen_channelConfig (i : Nat) : (s.setScreen n v).channelConfig i = s.channelConfig i := rfl
@[simp] theorem State.setScreen_scheduleEntry (i : Nat) : (s.setScreen n v).scheduleEntry i = s.scheduleEntry i := rfl
@[simp] theorem State.setScreen_closure (i : Nat) : (s.setScreen n v).closure i = s.closure i := rfl
@[simp] theorem State.setScreen_motion (i : Nat) : (s.setScreen n v).motion i = s.motion i := rfl
@[simp] theorem State.setScreen_gate (i : Nat) : (s.setScreen n v).gate i = s.gate i := rfl
@[simp] theorem State.setScreen_published (i : Nat) : (s.setScreen n v).published i = s.published i := rfl
@[simp] theorem State.setScreen_channel (i : Nat) : (s.setScreen n v).channel i = s.channel i := rfl
@[simp] theorem State.setScreen_lane (i : Nat) : (s.setScreen n v).lane i = s.lane i := rfl
@[simp] theorem State.setScreen_slot (i : Nat) : (s.setScreen n v).slot i = s.slot i := rfl
@[simp] theorem State.setScreen_anySearching : (s.setScreen n v).anySearching = s.anySearching := rfl
@[simp] theorem State.setScreen_lowestFreeLane : (s.setScreen n v).lowestFreeLane = s.lowestFreeLane := rfl
@[simp] theorem State.setScreen_lowestFreeSlot : (s.setScreen n v).lowestFreeSlot = s.lowestFreeSlot := rfl
@[simp] theorem State.setScreen_transferRuns : (s.setScreen n v).transferRuns = s.transferRuns := rfl
@[simp] theorem State.setScreen_running : (s.setScreen n v).running = s.running := rfl

end

/-! ### State.setQueue -/

section

variable (s : State) (q : List QueueEntry)

@[simp] theorem State.setQueue_pending : (s.setQueue q).pending = s.pending := rfl
@[simp] theorem State.setQueue_pins : (s.setQueue q).pins = s.pins := rfl
@[simp] theorem State.setQueue_site : (s.setQueue q).site = s.site := rfl
@[simp] theorem State.setQueue_transfer : (s.setQueue q).transfer = s.transfer := rfl
@[simp] theorem State.setQueue_conditions : (s.setQueue q).conditions = s.conditions := rfl
@[simp] theorem State.setQueue_schedule : (s.setQueue q).schedule = s.schedule := rfl
@[simp] theorem State.setQueue_flow : (s.setQueue q).flow = s.flow := rfl
@[simp] theorem State.setQueue_lanes : (s.setQueue q).lanes = s.lanes := rfl
@[simp] theorem State.setQueue_store : (s.setQueue q).store = s.store := rfl
@[simp] theorem State.setQueue_egress : (s.setQueue q).egress = s.egress := rfl
@[simp] theorem State.setQueue_link : (s.setQueue q).link = s.link := rfl
@[simp] theorem State.setQueue_dispatcher_queue : (s.setQueue q).dispatcher.queue = q := rfl
@[simp] theorem State.setQueue_dispatcher_screens : (s.setQueue q).dispatcher.screens = s.dispatcher.screens := rfl
@[simp] theorem State.setQueue_node (i : Nat) : (s.setQueue q).node i = s.node i := rfl
@[simp] theorem State.setQueue_edge (i : Nat) : (s.setQueue q).edge i = s.edge i := rfl
@[simp] theorem State.setQueue_adjacent (i : Nat) : (s.setQueue q).adjacent i = s.adjacent i := rfl
@[simp] theorem State.setQueue_group (i : Nat) : (s.setQueue q).group i = s.group i := rfl
@[simp] theorem State.setQueue_member (i : Nat) : (s.setQueue q).member i = s.member i := rfl
@[simp] theorem State.setQueue_directoryEntry (i : Nat) : (s.setQueue q).directoryEntry i = s.directoryEntry i := rfl
@[simp] theorem State.setQueue_gateDefault (i : Nat) : (s.setQueue q).gateDefault i = s.gateDefault i := rfl
@[simp] theorem State.setQueue_profile (i : Nat) : (s.setQueue q).profile i = s.profile i := rfl
@[simp] theorem State.setQueue_screenRecord (i : Nat) : (s.setQueue q).screenRecord i = s.screenRecord i := rfl
@[simp] theorem State.setQueue_channelConfig (i : Nat) : (s.setQueue q).channelConfig i = s.channelConfig i := rfl
@[simp] theorem State.setQueue_scheduleEntry (i : Nat) : (s.setQueue q).scheduleEntry i = s.scheduleEntry i := rfl
@[simp] theorem State.setQueue_closure (i : Nat) : (s.setQueue q).closure i = s.closure i := rfl
@[simp] theorem State.setQueue_motion (i : Nat) : (s.setQueue q).motion i = s.motion i := rfl
@[simp] theorem State.setQueue_gate (i : Nat) : (s.setQueue q).gate i = s.gate i := rfl
@[simp] theorem State.setQueue_published (i : Nat) : (s.setQueue q).published i = s.published i := rfl
@[simp] theorem State.setQueue_channel (i : Nat) : (s.setQueue q).channel i = s.channel i := rfl
@[simp] theorem State.setQueue_screen (i : Nat) : (s.setQueue q).screen i = s.screen i := rfl
@[simp] theorem State.setQueue_lane (i : Nat) : (s.setQueue q).lane i = s.lane i := rfl
@[simp] theorem State.setQueue_slot (i : Nat) : (s.setQueue q).slot i = s.slot i := rfl
@[simp] theorem State.setQueue_anySearching : (s.setQueue q).anySearching = s.anySearching := rfl
@[simp] theorem State.setQueue_lowestFreeLane : (s.setQueue q).lowestFreeLane = s.lowestFreeLane := rfl
@[simp] theorem State.setQueue_lowestFreeSlot : (s.setQueue q).lowestFreeSlot = s.lowestFreeSlot := rfl
@[simp] theorem State.setQueue_transferRuns : (s.setQueue q).transferRuns = s.transferRuns := rfl
@[simp] theorem State.setQueue_running : (s.setQueue q).running = s.running := rfl

end

/-! ### State.setLane -/

section

variable (s : State) (l : Nat) (v : Lane)

@[simp] theorem State.setLane_pending : (s.setLane l v).pending = s.pending := rfl
@[simp] theorem State.setLane_pins : (s.setLane l v).pins = s.pins := rfl
@[simp] theorem State.setLane_site : (s.setLane l v).site = s.site := rfl
@[simp] theorem State.setLane_transfer : (s.setLane l v).transfer = s.transfer := rfl
@[simp] theorem State.setLane_conditions : (s.setLane l v).conditions = s.conditions := rfl
@[simp] theorem State.setLane_schedule : (s.setLane l v).schedule = s.schedule := rfl
@[simp] theorem State.setLane_flow : (s.setLane l v).flow = s.flow := rfl
@[simp] theorem State.setLane_dispatcher : (s.setLane l v).dispatcher = s.dispatcher := rfl
@[simp] theorem State.setLane_store : (s.setLane l v).store = s.store := rfl
@[simp] theorem State.setLane_egress : (s.setLane l v).egress = s.egress := rfl
@[simp] theorem State.setLane_link : (s.setLane l v).link = s.link := rfl
@[simp] theorem State.setLane_lanes : (s.setLane l v).lanes = Table.set .cleared s.lanes l v := rfl
@[simp] theorem State.setLane_node (i : Nat) : (s.setLane l v).node i = s.node i := rfl
@[simp] theorem State.setLane_edge (i : Nat) : (s.setLane l v).edge i = s.edge i := rfl
@[simp] theorem State.setLane_adjacent (i : Nat) : (s.setLane l v).adjacent i = s.adjacent i := rfl
@[simp] theorem State.setLane_group (i : Nat) : (s.setLane l v).group i = s.group i := rfl
@[simp] theorem State.setLane_member (i : Nat) : (s.setLane l v).member i = s.member i := rfl
@[simp] theorem State.setLane_directoryEntry (i : Nat) : (s.setLane l v).directoryEntry i = s.directoryEntry i := rfl
@[simp] theorem State.setLane_gateDefault (i : Nat) : (s.setLane l v).gateDefault i = s.gateDefault i := rfl
@[simp] theorem State.setLane_profile (i : Nat) : (s.setLane l v).profile i = s.profile i := rfl
@[simp] theorem State.setLane_screenRecord (i : Nat) : (s.setLane l v).screenRecord i = s.screenRecord i := rfl
@[simp] theorem State.setLane_channelConfig (i : Nat) : (s.setLane l v).channelConfig i = s.channelConfig i := rfl
@[simp] theorem State.setLane_scheduleEntry (i : Nat) : (s.setLane l v).scheduleEntry i = s.scheduleEntry i := rfl
@[simp] theorem State.setLane_closure (i : Nat) : (s.setLane l v).closure i = s.closure i := rfl
@[simp] theorem State.setLane_motion (i : Nat) : (s.setLane l v).motion i = s.motion i := rfl
@[simp] theorem State.setLane_gate (i : Nat) : (s.setLane l v).gate i = s.gate i := rfl
@[simp] theorem State.setLane_published (i : Nat) : (s.setLane l v).published i = s.published i := rfl
@[simp] theorem State.setLane_channel (i : Nat) : (s.setLane l v).channel i = s.channel i := rfl
@[simp] theorem State.setLane_screen (i : Nat) : (s.setLane l v).screen i = s.screen i := rfl
@[simp] theorem State.setLane_slot (i : Nat) : (s.setLane l v).slot i = s.slot i := rfl
@[simp] theorem State.setLane_lowestFreeSlot : (s.setLane l v).lowestFreeSlot = s.lowestFreeSlot := rfl
@[simp] theorem State.setLane_transferRuns : (s.setLane l v).transferRuns = s.transferRuns := rfl
@[simp] theorem State.setLane_running : (s.setLane l v).running = s.running := rfl

end

/-! ### State.setSlot -/

section

variable (s : State) (n : Nat) (v : Option Slot)

@[simp] theorem State.setSlot_pending : (s.setSlot n v).pending = s.pending := rfl
@[simp] theorem State.setSlot_pins : (s.setSlot n v).pins = s.pins := rfl
@[simp] theorem State.setSlot_site : (s.setSlot n v).site = s.site := rfl
@[simp] theorem State.setSlot_transfer : (s.setSlot n v).transfer = s.transfer := rfl
@[simp] theorem State.setSlot_conditions : (s.setSlot n v).conditions = s.conditions := rfl
@[simp] theorem State.setSlot_schedule : (s.setSlot n v).schedule = s.schedule := rfl
@[simp] theorem State.setSlot_flow : (s.setSlot n v).flow = s.flow := rfl
@[simp] theorem State.setSlot_dispatcher : (s.setSlot n v).dispatcher = s.dispatcher := rfl
@[simp] theorem State.setSlot_lanes : (s.setSlot n v).lanes = s.lanes := rfl
@[simp] theorem State.setSlot_egress : (s.setSlot n v).egress = s.egress := rfl
@[simp] theorem State.setSlot_link : (s.setSlot n v).link = s.link := rfl
@[simp] theorem State.setSlot_store_slots : (s.setSlot n v).store.slots = Table.set none s.store.slots n v := rfl
@[simp] theorem State.setSlot_store_holders : (s.setSlot n v).store.holders = s.store.holders := rfl
@[simp] theorem State.setSlot_node (i : Nat) : (s.setSlot n v).node i = s.node i := rfl
@[simp] theorem State.setSlot_edge (i : Nat) : (s.setSlot n v).edge i = s.edge i := rfl
@[simp] theorem State.setSlot_adjacent (i : Nat) : (s.setSlot n v).adjacent i = s.adjacent i := rfl
@[simp] theorem State.setSlot_group (i : Nat) : (s.setSlot n v).group i = s.group i := rfl
@[simp] theorem State.setSlot_member (i : Nat) : (s.setSlot n v).member i = s.member i := rfl
@[simp] theorem State.setSlot_directoryEntry (i : Nat) : (s.setSlot n v).directoryEntry i = s.directoryEntry i := rfl
@[simp] theorem State.setSlot_gateDefault (i : Nat) : (s.setSlot n v).gateDefault i = s.gateDefault i := rfl
@[simp] theorem State.setSlot_profile (i : Nat) : (s.setSlot n v).profile i = s.profile i := rfl
@[simp] theorem State.setSlot_screenRecord (i : Nat) : (s.setSlot n v).screenRecord i = s.screenRecord i := rfl
@[simp] theorem State.setSlot_channelConfig (i : Nat) : (s.setSlot n v).channelConfig i = s.channelConfig i := rfl
@[simp] theorem State.setSlot_scheduleEntry (i : Nat) : (s.setSlot n v).scheduleEntry i = s.scheduleEntry i := rfl
@[simp] theorem State.setSlot_closure (i : Nat) : (s.setSlot n v).closure i = s.closure i := rfl
@[simp] theorem State.setSlot_motion (i : Nat) : (s.setSlot n v).motion i = s.motion i := rfl
@[simp] theorem State.setSlot_gate (i : Nat) : (s.setSlot n v).gate i = s.gate i := rfl
@[simp] theorem State.setSlot_published (i : Nat) : (s.setSlot n v).published i = s.published i := rfl
@[simp] theorem State.setSlot_channel (i : Nat) : (s.setSlot n v).channel i = s.channel i := rfl
@[simp] theorem State.setSlot_screen (i : Nat) : (s.setSlot n v).screen i = s.screen i := rfl
@[simp] theorem State.setSlot_lane (i : Nat) : (s.setSlot n v).lane i = s.lane i := rfl
@[simp] theorem State.setSlot_anySearching : (s.setSlot n v).anySearching = s.anySearching := rfl
@[simp] theorem State.setSlot_lowestFreeLane : (s.setSlot n v).lowestFreeLane = s.lowestFreeLane := rfl
@[simp] theorem State.setSlot_transferRuns : (s.setSlot n v).transferRuns = s.transferRuns := rfl
@[simp] theorem State.setSlot_running : (s.setSlot n v).running = s.running := rfl

end

/-! ### State.setHolders -/

section

variable (s : State) (h : List Nat)

@[simp] theorem State.setHolders_pending : (s.setHolders h).pending = s.pending := rfl
@[simp] theorem State.setHolders_pins : (s.setHolders h).pins = s.pins := rfl
@[simp] theorem State.setHolders_site : (s.setHolders h).site = s.site := rfl
@[simp] theorem State.setHolders_transfer : (s.setHolders h).transfer = s.transfer := rfl
@[simp] theorem State.setHolders_conditions : (s.setHolders h).conditions = s.conditions := rfl
@[simp] theorem State.setHolders_schedule : (s.setHolders h).schedule = s.schedule := rfl
@[simp] theorem State.setHolders_flow : (s.setHolders h).flow = s.flow := rfl
@[simp] theorem State.setHolders_dispatcher : (s.setHolders h).dispatcher = s.dispatcher := rfl
@[simp] theorem State.setHolders_lanes : (s.setHolders h).lanes = s.lanes := rfl
@[simp] theorem State.setHolders_egress : (s.setHolders h).egress = s.egress := rfl
@[simp] theorem State.setHolders_link : (s.setHolders h).link = s.link := rfl
@[simp] theorem State.setHolders_store_slots : (s.setHolders h).store.slots = s.store.slots := rfl
@[simp] theorem State.setHolders_store_holders : (s.setHolders h).store.holders = h := rfl
@[simp] theorem State.setHolders_node (i : Nat) : (s.setHolders h).node i = s.node i := rfl
@[simp] theorem State.setHolders_edge (i : Nat) : (s.setHolders h).edge i = s.edge i := rfl
@[simp] theorem State.setHolders_adjacent (i : Nat) : (s.setHolders h).adjacent i = s.adjacent i := rfl
@[simp] theorem State.setHolders_group (i : Nat) : (s.setHolders h).group i = s.group i := rfl
@[simp] theorem State.setHolders_member (i : Nat) : (s.setHolders h).member i = s.member i := rfl
@[simp] theorem State.setHolders_directoryEntry (i : Nat) : (s.setHolders h).directoryEntry i = s.directoryEntry i := rfl
@[simp] theorem State.setHolders_gateDefault (i : Nat) : (s.setHolders h).gateDefault i = s.gateDefault i := rfl
@[simp] theorem State.setHolders_profile (i : Nat) : (s.setHolders h).profile i = s.profile i := rfl
@[simp] theorem State.setHolders_screenRecord (i : Nat) : (s.setHolders h).screenRecord i = s.screenRecord i := rfl
@[simp] theorem State.setHolders_channelConfig (i : Nat) : (s.setHolders h).channelConfig i = s.channelConfig i := rfl
@[simp] theorem State.setHolders_scheduleEntry (i : Nat) : (s.setHolders h).scheduleEntry i = s.scheduleEntry i := rfl
@[simp] theorem State.setHolders_closure (i : Nat) : (s.setHolders h).closure i = s.closure i := rfl
@[simp] theorem State.setHolders_motion (i : Nat) : (s.setHolders h).motion i = s.motion i := rfl
@[simp] theorem State.setHolders_gate (i : Nat) : (s.setHolders h).gate i = s.gate i := rfl
@[simp] theorem State.setHolders_published (i : Nat) : (s.setHolders h).published i = s.published i := rfl
@[simp] theorem State.setHolders_channel (i : Nat) : (s.setHolders h).channel i = s.channel i := rfl
@[simp] theorem State.setHolders_screen (i : Nat) : (s.setHolders h).screen i = s.screen i := rfl
@[simp] theorem State.setHolders_lane (i : Nat) : (s.setHolders h).lane i = s.lane i := rfl
@[simp] theorem State.setHolders_slot (i : Nat) : (s.setHolders h).slot i = s.slot i := rfl
@[simp] theorem State.setHolders_anySearching : (s.setHolders h).anySearching = s.anySearching := rfl
@[simp] theorem State.setHolders_lowestFreeLane : (s.setHolders h).lowestFreeLane = s.lowestFreeLane := rfl
@[simp] theorem State.setHolders_lowestFreeSlot : (s.setHolders h).lowestFreeSlot = s.lowestFreeSlot := rfl
@[simp] theorem State.setHolders_transferRuns : (s.setHolders h).transferRuns = s.transferRuns := rfl
@[simp] theorem State.setHolders_running : (s.setHolders h).running = s.running := rfl

end

/-! ### State.setChannel -/

section

variable (s : State) (c : Nat) (v : Channel)

@[simp] theorem State.setChannel_pending : (s.setChannel c v).pending = s.pending := rfl
@[simp] theorem State.setChannel_pins : (s.setChannel c v).pins = s.pins := rfl
@[simp] theorem State.setChannel_site : (s.setChannel c v).site = s.site := rfl
@[simp] theorem State.setChannel_transfer : (s.setChannel c v).transfer = s.transfer := rfl
@[simp] theorem State.setChannel_conditions : (s.setChannel c v).conditions = s.conditions := rfl
@[simp] theorem State.setChannel_schedule : (s.setChannel c v).schedule = s.schedule := rfl
@[simp] theorem State.setChannel_dispatcher : (s.setChannel c v).dispatcher = s.dispatcher := rfl
@[simp] theorem State.setChannel_lanes : (s.setChannel c v).lanes = s.lanes := rfl
@[simp] theorem State.setChannel_store : (s.setChannel c v).store = s.store := rfl
@[simp] theorem State.setChannel_egress : (s.setChannel c v).egress = s.egress := rfl
@[simp] theorem State.setChannel_link : (s.setChannel c v).link = s.link := rfl
@[simp] theorem State.setChannel_flow_channels : (s.setChannel c v).flow.channels = Table.set .cleared s.flow.channels c v := rfl
@[simp] theorem State.setChannel_flow_timer : (s.setChannel c v).flow.timer = s.flow.timer := rfl
@[simp] theorem State.setChannel_flow_cycle : (s.setChannel c v).flow.cycle = s.flow.cycle := rfl
@[simp] theorem State.setChannel_node (i : Nat) : (s.setChannel c v).node i = s.node i := rfl
@[simp] theorem State.setChannel_edge (i : Nat) : (s.setChannel c v).edge i = s.edge i := rfl
@[simp] theorem State.setChannel_adjacent (i : Nat) : (s.setChannel c v).adjacent i = s.adjacent i := rfl
@[simp] theorem State.setChannel_group (i : Nat) : (s.setChannel c v).group i = s.group i := rfl
@[simp] theorem State.setChannel_member (i : Nat) : (s.setChannel c v).member i = s.member i := rfl
@[simp] theorem State.setChannel_directoryEntry (i : Nat) : (s.setChannel c v).directoryEntry i = s.directoryEntry i := rfl
@[simp] theorem State.setChannel_gateDefault (i : Nat) : (s.setChannel c v).gateDefault i = s.gateDefault i := rfl
@[simp] theorem State.setChannel_profile (i : Nat) : (s.setChannel c v).profile i = s.profile i := rfl
@[simp] theorem State.setChannel_screenRecord (i : Nat) : (s.setChannel c v).screenRecord i = s.screenRecord i := rfl
@[simp] theorem State.setChannel_channelConfig (i : Nat) : (s.setChannel c v).channelConfig i = s.channelConfig i := rfl
@[simp] theorem State.setChannel_scheduleEntry (i : Nat) : (s.setChannel c v).scheduleEntry i = s.scheduleEntry i := rfl
@[simp] theorem State.setChannel_closure (i : Nat) : (s.setChannel c v).closure i = s.closure i := rfl
@[simp] theorem State.setChannel_motion (i : Nat) : (s.setChannel c v).motion i = s.motion i := rfl
@[simp] theorem State.setChannel_gate (i : Nat) : (s.setChannel c v).gate i = s.gate i := rfl
@[simp] theorem State.setChannel_published (i : Nat) : (s.setChannel c v).published i = s.published i := rfl
@[simp] theorem State.setChannel_screen (i : Nat) : (s.setChannel c v).screen i = s.screen i := rfl
@[simp] theorem State.setChannel_lane (i : Nat) : (s.setChannel c v).lane i = s.lane i := rfl
@[simp] theorem State.setChannel_slot (i : Nat) : (s.setChannel c v).slot i = s.slot i := rfl
@[simp] theorem State.setChannel_anySearching : (s.setChannel c v).anySearching = s.anySearching := rfl
@[simp] theorem State.setChannel_lowestFreeLane : (s.setChannel c v).lowestFreeLane = s.lowestFreeLane := rfl
@[simp] theorem State.setChannel_lowestFreeSlot : (s.setChannel c v).lowestFreeSlot = s.lowestFreeSlot := rfl
@[simp] theorem State.setChannel_transferRuns : (s.setChannel c v).transferRuns = s.transferRuns := rfl
@[simp] theorem State.setChannel_running : (s.setChannel c v).running = s.running := rfl

end

/-! ### State.setCycle -/

section

variable (s : State) (c : Option PollCycle)

@[simp] theorem State.setCycle_pending : (s.setCycle c).pending = s.pending := rfl
@[simp] theorem State.setCycle_pins : (s.setCycle c).pins = s.pins := rfl
@[simp] theorem State.setCycle_site : (s.setCycle c).site = s.site := rfl
@[simp] theorem State.setCycle_transfer : (s.setCycle c).transfer = s.transfer := rfl
@[simp] theorem State.setCycle_conditions : (s.setCycle c).conditions = s.conditions := rfl
@[simp] theorem State.setCycle_schedule : (s.setCycle c).schedule = s.schedule := rfl
@[simp] theorem State.setCycle_dispatcher : (s.setCycle c).dispatcher = s.dispatcher := rfl
@[simp] theorem State.setCycle_lanes : (s.setCycle c).lanes = s.lanes := rfl
@[simp] theorem State.setCycle_store : (s.setCycle c).store = s.store := rfl
@[simp] theorem State.setCycle_egress : (s.setCycle c).egress = s.egress := rfl
@[simp] theorem State.setCycle_link : (s.setCycle c).link = s.link := rfl
@[simp] theorem State.setCycle_flow_channels : (s.setCycle c).flow.channels = s.flow.channels := rfl
@[simp] theorem State.setCycle_flow_timer : (s.setCycle c).flow.timer = s.flow.timer := rfl
@[simp] theorem State.setCycle_flow_cycle : (s.setCycle c).flow.cycle = c := rfl
@[simp] theorem State.setCycle_node (i : Nat) : (s.setCycle c).node i = s.node i := rfl
@[simp] theorem State.setCycle_edge (i : Nat) : (s.setCycle c).edge i = s.edge i := rfl
@[simp] theorem State.setCycle_adjacent (i : Nat) : (s.setCycle c).adjacent i = s.adjacent i := rfl
@[simp] theorem State.setCycle_group (i : Nat) : (s.setCycle c).group i = s.group i := rfl
@[simp] theorem State.setCycle_member (i : Nat) : (s.setCycle c).member i = s.member i := rfl
@[simp] theorem State.setCycle_directoryEntry (i : Nat) : (s.setCycle c).directoryEntry i = s.directoryEntry i := rfl
@[simp] theorem State.setCycle_gateDefault (i : Nat) : (s.setCycle c).gateDefault i = s.gateDefault i := rfl
@[simp] theorem State.setCycle_profile (i : Nat) : (s.setCycle c).profile i = s.profile i := rfl
@[simp] theorem State.setCycle_screenRecord (i : Nat) : (s.setCycle c).screenRecord i = s.screenRecord i := rfl
@[simp] theorem State.setCycle_channelConfig (i : Nat) : (s.setCycle c).channelConfig i = s.channelConfig i := rfl
@[simp] theorem State.setCycle_scheduleEntry (i : Nat) : (s.setCycle c).scheduleEntry i = s.scheduleEntry i := rfl
@[simp] theorem State.setCycle_closure (i : Nat) : (s.setCycle c).closure i = s.closure i := rfl
@[simp] theorem State.setCycle_motion (i : Nat) : (s.setCycle c).motion i = s.motion i := rfl
@[simp] theorem State.setCycle_gate (i : Nat) : (s.setCycle c).gate i = s.gate i := rfl
@[simp] theorem State.setCycle_published (i : Nat) : (s.setCycle c).published i = s.published i := rfl
@[simp] theorem State.setCycle_channel (i : Nat) : (s.setCycle c).channel i = s.channel i := rfl
@[simp] theorem State.setCycle_screen (i : Nat) : (s.setCycle c).screen i = s.screen i := rfl
@[simp] theorem State.setCycle_lane (i : Nat) : (s.setCycle c).lane i = s.lane i := rfl
@[simp] theorem State.setCycle_slot (i : Nat) : (s.setCycle c).slot i = s.slot i := rfl
@[simp] theorem State.setCycle_anySearching : (s.setCycle c).anySearching = s.anySearching := rfl
@[simp] theorem State.setCycle_lowestFreeLane : (s.setCycle c).lowestFreeLane = s.lowestFreeLane := rfl
@[simp] theorem State.setCycle_lowestFreeSlot : (s.setCycle c).lowestFreeSlot = s.lowestFreeSlot := rfl
@[simp] theorem State.setCycle_transferRuns : (s.setCycle c).transferRuns = s.transferRuns := rfl
@[simp] theorem State.setCycle_running : (s.setCycle c).running = s.running := rfl

end

/-! ### State.startSampleTimer -/

section

variable (s : State)

@[simp] theorem State.startSampleTimer_pending : (s.startSampleTimer).pending = s.pending := rfl
@[simp] theorem State.startSampleTimer_pins : (s.startSampleTimer).pins = s.pins := rfl
@[simp] theorem State.startSampleTimer_site : (s.startSampleTimer).site = s.site := rfl
@[simp] theorem State.startSampleTimer_transfer : (s.startSampleTimer).transfer = s.transfer := rfl
@[simp] theorem State.startSampleTimer_conditions : (s.startSampleTimer).conditions = s.conditions := rfl
@[simp] theorem State.startSampleTimer_schedule : (s.startSampleTimer).schedule = s.schedule := rfl
@[simp] theorem State.startSampleTimer_dispatcher : (s.startSampleTimer).dispatcher = s.dispatcher := rfl
@[simp] theorem State.startSampleTimer_lanes : (s.startSampleTimer).lanes = s.lanes := rfl
@[simp] theorem State.startSampleTimer_store : (s.startSampleTimer).store = s.store := rfl
@[simp] theorem State.startSampleTimer_egress : (s.startSampleTimer).egress = s.egress := rfl
@[simp] theorem State.startSampleTimer_link : (s.startSampleTimer).link = s.link := rfl
@[simp] theorem State.startSampleTimer_flow_channels : (s.startSampleTimer).flow.channels = s.flow.channels := rfl
@[simp] theorem State.startSampleTimer_flow_timer : (s.startSampleTimer).flow.timer = some s.link.parameters.sampleInterval := rfl
@[simp] theorem State.startSampleTimer_flow_cycle : (s.startSampleTimer).flow.cycle = s.flow.cycle := rfl
@[simp] theorem State.startSampleTimer_node (i : Nat) : (s.startSampleTimer).node i = s.node i := rfl
@[simp] theorem State.startSampleTimer_edge (i : Nat) : (s.startSampleTimer).edge i = s.edge i := rfl
@[simp] theorem State.startSampleTimer_adjacent (i : Nat) : (s.startSampleTimer).adjacent i = s.adjacent i := rfl
@[simp] theorem State.startSampleTimer_group (i : Nat) : (s.startSampleTimer).group i = s.group i := rfl
@[simp] theorem State.startSampleTimer_member (i : Nat) : (s.startSampleTimer).member i = s.member i := rfl
@[simp] theorem State.startSampleTimer_directoryEntry (i : Nat) : (s.startSampleTimer).directoryEntry i = s.directoryEntry i := rfl
@[simp] theorem State.startSampleTimer_gateDefault (i : Nat) : (s.startSampleTimer).gateDefault i = s.gateDefault i := rfl
@[simp] theorem State.startSampleTimer_profile (i : Nat) : (s.startSampleTimer).profile i = s.profile i := rfl
@[simp] theorem State.startSampleTimer_screenRecord (i : Nat) : (s.startSampleTimer).screenRecord i = s.screenRecord i := rfl
@[simp] theorem State.startSampleTimer_channelConfig (i : Nat) : (s.startSampleTimer).channelConfig i = s.channelConfig i := rfl
@[simp] theorem State.startSampleTimer_scheduleEntry (i : Nat) : (s.startSampleTimer).scheduleEntry i = s.scheduleEntry i := rfl
@[simp] theorem State.startSampleTimer_closure (i : Nat) : (s.startSampleTimer).closure i = s.closure i := rfl
@[simp] theorem State.startSampleTimer_motion (i : Nat) : (s.startSampleTimer).motion i = s.motion i := rfl
@[simp] theorem State.startSampleTimer_gate (i : Nat) : (s.startSampleTimer).gate i = s.gate i := rfl
@[simp] theorem State.startSampleTimer_published (i : Nat) : (s.startSampleTimer).published i = s.published i := rfl
@[simp] theorem State.startSampleTimer_channel (i : Nat) : (s.startSampleTimer).channel i = s.channel i := rfl
@[simp] theorem State.startSampleTimer_screen (i : Nat) : (s.startSampleTimer).screen i = s.screen i := rfl
@[simp] theorem State.startSampleTimer_lane (i : Nat) : (s.startSampleTimer).lane i = s.lane i := rfl
@[simp] theorem State.startSampleTimer_slot (i : Nat) : (s.startSampleTimer).slot i = s.slot i := rfl
@[simp] theorem State.startSampleTimer_anySearching : (s.startSampleTimer).anySearching = s.anySearching := rfl
@[simp] theorem State.startSampleTimer_lowestFreeLane : (s.startSampleTimer).lowestFreeLane = s.lowestFreeLane := rfl
@[simp] theorem State.startSampleTimer_lowestFreeSlot : (s.startSampleTimer).lowestFreeSlot = s.lowestFreeSlot := rfl
@[simp] theorem State.startSampleTimer_transferRuns : (s.startSampleTimer).transferRuns = s.transferRuns := rfl
@[simp] theorem State.startSampleTimer_running : (s.startSampleTimer).running = s.running := rfl

end

/-! ### State.setTransfer -/

section

variable (s : State) (t : TransferUnit)

@[simp] theorem State.setTransfer_pending : (s.setTransfer t).pending = s.pending := rfl
@[simp] theorem State.setTransfer_pins : (s.setTransfer t).pins = s.pins := rfl
@[simp] theorem State.setTransfer_site : (s.setTransfer t).site = s.site := rfl
@[simp] theorem State.setTransfer_conditions : (s.setTransfer t).conditions = s.conditions := rfl
@[simp] theorem State.setTransfer_schedule : (s.setTransfer t).schedule = s.schedule := rfl
@[simp] theorem State.setTransfer_flow : (s.setTransfer t).flow = s.flow := rfl
@[simp] theorem State.setTransfer_dispatcher : (s.setTransfer t).dispatcher = s.dispatcher := rfl
@[simp] theorem State.setTransfer_lanes : (s.setTransfer t).lanes = s.lanes := rfl
@[simp] theorem State.setTransfer_store : (s.setTransfer t).store = s.store := rfl
@[simp] theorem State.setTransfer_egress : (s.setTransfer t).egress = s.egress := rfl
@[simp] theorem State.setTransfer_link : (s.setTransfer t).link = s.link := rfl
@[simp] theorem State.setTransfer_transfer : (s.setTransfer t).transfer = t := rfl
@[simp] theorem State.setTransfer_node (i : Nat) : (s.setTransfer t).node i = s.node i := rfl
@[simp] theorem State.setTransfer_edge (i : Nat) : (s.setTransfer t).edge i = s.edge i := rfl
@[simp] theorem State.setTransfer_adjacent (i : Nat) : (s.setTransfer t).adjacent i = s.adjacent i := rfl
@[simp] theorem State.setTransfer_group (i : Nat) : (s.setTransfer t).group i = s.group i := rfl
@[simp] theorem State.setTransfer_member (i : Nat) : (s.setTransfer t).member i = s.member i := rfl
@[simp] theorem State.setTransfer_directoryEntry (i : Nat) : (s.setTransfer t).directoryEntry i = s.directoryEntry i := rfl
@[simp] theorem State.setTransfer_gateDefault (i : Nat) : (s.setTransfer t).gateDefault i = s.gateDefault i := rfl
@[simp] theorem State.setTransfer_profile (i : Nat) : (s.setTransfer t).profile i = s.profile i := rfl
@[simp] theorem State.setTransfer_screenRecord (i : Nat) : (s.setTransfer t).screenRecord i = s.screenRecord i := rfl
@[simp] theorem State.setTransfer_channelConfig (i : Nat) : (s.setTransfer t).channelConfig i = s.channelConfig i := rfl
@[simp] theorem State.setTransfer_scheduleEntry (i : Nat) : (s.setTransfer t).scheduleEntry i = s.scheduleEntry i := rfl
@[simp] theorem State.setTransfer_closure (i : Nat) : (s.setTransfer t).closure i = s.closure i := rfl
@[simp] theorem State.setTransfer_motion (i : Nat) : (s.setTransfer t).motion i = s.motion i := rfl
@[simp] theorem State.setTransfer_gate (i : Nat) : (s.setTransfer t).gate i = s.gate i := rfl
@[simp] theorem State.setTransfer_published (i : Nat) : (s.setTransfer t).published i = s.published i := rfl
@[simp] theorem State.setTransfer_channel (i : Nat) : (s.setTransfer t).channel i = s.channel i := rfl
@[simp] theorem State.setTransfer_screen (i : Nat) : (s.setTransfer t).screen i = s.screen i := rfl
@[simp] theorem State.setTransfer_lane (i : Nat) : (s.setTransfer t).lane i = s.lane i := rfl
@[simp] theorem State.setTransfer_slot (i : Nat) : (s.setTransfer t).slot i = s.slot i := rfl
@[simp] theorem State.setTransfer_anySearching : (s.setTransfer t).anySearching = s.anySearching := rfl
@[simp] theorem State.setTransfer_lowestFreeLane : (s.setTransfer t).lowestFreeLane = s.lowestFreeLane := rfl
@[simp] theorem State.setTransfer_lowestFreeSlot : (s.setTransfer t).lowestFreeSlot = s.lowestFreeSlot := rfl
@[simp] theorem State.setTransfer_running : (s.setTransfer t).running = s.running := rfl

end

/-! ### State.setEdits -/

section

variable (s : State) (e : List Edit)

@[simp] theorem State.setEdits_pending : (s.setEdits e).pending = s.pending := rfl
@[simp] theorem State.setEdits_pins : (s.setEdits e).pins = s.pins := rfl
@[simp] theorem State.setEdits_site : (s.setEdits e).site = s.site := rfl
@[simp] theorem State.setEdits_transfer : (s.setEdits e).transfer = s.transfer := rfl
@[simp] theorem State.setEdits_schedule : (s.setEdits e).schedule = s.schedule := rfl
@[simp] theorem State.setEdits_flow : (s.setEdits e).flow = s.flow := rfl
@[simp] theorem State.setEdits_dispatcher : (s.setEdits e).dispatcher = s.dispatcher := rfl
@[simp] theorem State.setEdits_lanes : (s.setEdits e).lanes = s.lanes := rfl
@[simp] theorem State.setEdits_store : (s.setEdits e).store = s.store := rfl
@[simp] theorem State.setEdits_egress : (s.setEdits e).egress = s.egress := rfl
@[simp] theorem State.setEdits_link : (s.setEdits e).link = s.link := rfl
@[simp] theorem State.setEdits_conditions_closures : (s.setEdits e).conditions.closures = s.conditions.closures := rfl
@[simp] theorem State.setEdits_conditions_motions : (s.setEdits e).conditions.motions = s.conditions.motions := rfl
@[simp] theorem State.setEdits_conditions_gates : (s.setEdits e).conditions.gates = s.conditions.gates := rfl
@[simp] theorem State.setEdits_conditions_levels : (s.setEdits e).conditions.levels = s.conditions.levels := rfl
@[simp] theorem State.setEdits_conditions_edits : (s.setEdits e).conditions.edits = e := rfl
@[simp] theorem State.setEdits_conditions_epoch : (s.setEdits e).conditions.epoch = s.conditions.epoch := rfl
@[simp] theorem State.setEdits_conditions_turn : (s.setEdits e).conditions.turn = s.conditions.turn := rfl
@[simp] theorem State.setEdits_conditions_timer : (s.setEdits e).conditions.timer = s.conditions.timer := rfl
@[simp] theorem State.setEdits_node (i : Nat) : (s.setEdits e).node i = s.node i := rfl
@[simp] theorem State.setEdits_edge (i : Nat) : (s.setEdits e).edge i = s.edge i := rfl
@[simp] theorem State.setEdits_adjacent (i : Nat) : (s.setEdits e).adjacent i = s.adjacent i := rfl
@[simp] theorem State.setEdits_group (i : Nat) : (s.setEdits e).group i = s.group i := rfl
@[simp] theorem State.setEdits_member (i : Nat) : (s.setEdits e).member i = s.member i := rfl
@[simp] theorem State.setEdits_directoryEntry (i : Nat) : (s.setEdits e).directoryEntry i = s.directoryEntry i := rfl
@[simp] theorem State.setEdits_gateDefault (i : Nat) : (s.setEdits e).gateDefault i = s.gateDefault i := rfl
@[simp] theorem State.setEdits_profile (i : Nat) : (s.setEdits e).profile i = s.profile i := rfl
@[simp] theorem State.setEdits_screenRecord (i : Nat) : (s.setEdits e).screenRecord i = s.screenRecord i := rfl
@[simp] theorem State.setEdits_channelConfig (i : Nat) : (s.setEdits e).channelConfig i = s.channelConfig i := rfl
@[simp] theorem State.setEdits_scheduleEntry (i : Nat) : (s.setEdits e).scheduleEntry i = s.scheduleEntry i := rfl
@[simp] theorem State.setEdits_closure (i : Nat) : (s.setEdits e).closure i = s.closure i := rfl
@[simp] theorem State.setEdits_motion (i : Nat) : (s.setEdits e).motion i = s.motion i := rfl
@[simp] theorem State.setEdits_gate (i : Nat) : (s.setEdits e).gate i = s.gate i := rfl
@[simp] theorem State.setEdits_published (i : Nat) : (s.setEdits e).published i = s.published i := rfl
@[simp] theorem State.setEdits_channel (i : Nat) : (s.setEdits e).channel i = s.channel i := rfl
@[simp] theorem State.setEdits_screen (i : Nat) : (s.setEdits e).screen i = s.screen i := rfl
@[simp] theorem State.setEdits_lane (i : Nat) : (s.setEdits e).lane i = s.lane i := rfl
@[simp] theorem State.setEdits_slot (i : Nat) : (s.setEdits e).slot i = s.slot i := rfl
@[simp] theorem State.setEdits_anySearching : (s.setEdits e).anySearching = s.anySearching := rfl
@[simp] theorem State.setEdits_lowestFreeLane : (s.setEdits e).lowestFreeLane = s.lowestFreeLane := rfl
@[simp] theorem State.setEdits_lowestFreeSlot : (s.setEdits e).lowestFreeSlot = s.lowestFreeSlot := rfl
@[simp] theorem State.setEdits_transferRuns : (s.setEdits e).transferRuns = s.transferRuns := rfl
@[simp] theorem State.setEdits_running : (s.setEdits e).running = s.running := rfl

end

/-! ### State.startTurnTimer -/

section

variable (s : State)

@[simp] theorem State.startTurnTimer_pending : (s.startTurnTimer).pending = s.pending := rfl
@[simp] theorem State.startTurnTimer_pins : (s.startTurnTimer).pins = s.pins := rfl
@[simp] theorem State.startTurnTimer_site : (s.startTurnTimer).site = s.site := rfl
@[simp] theorem State.startTurnTimer_transfer : (s.startTurnTimer).transfer = s.transfer := rfl
@[simp] theorem State.startTurnTimer_schedule : (s.startTurnTimer).schedule = s.schedule := rfl
@[simp] theorem State.startTurnTimer_flow : (s.startTurnTimer).flow = s.flow := rfl
@[simp] theorem State.startTurnTimer_dispatcher : (s.startTurnTimer).dispatcher = s.dispatcher := rfl
@[simp] theorem State.startTurnTimer_lanes : (s.startTurnTimer).lanes = s.lanes := rfl
@[simp] theorem State.startTurnTimer_store : (s.startTurnTimer).store = s.store := rfl
@[simp] theorem State.startTurnTimer_egress : (s.startTurnTimer).egress = s.egress := rfl
@[simp] theorem State.startTurnTimer_link : (s.startTurnTimer).link = s.link := rfl
@[simp] theorem State.startTurnTimer_conditions_closures : (s.startTurnTimer).conditions.closures = s.conditions.closures := rfl
@[simp] theorem State.startTurnTimer_conditions_motions : (s.startTurnTimer).conditions.motions = s.conditions.motions := rfl
@[simp] theorem State.startTurnTimer_conditions_gates : (s.startTurnTimer).conditions.gates = s.conditions.gates := rfl
@[simp] theorem State.startTurnTimer_conditions_levels : (s.startTurnTimer).conditions.levels = s.conditions.levels := rfl
@[simp] theorem State.startTurnTimer_conditions_edits : (s.startTurnTimer).conditions.edits = s.conditions.edits := rfl
@[simp] theorem State.startTurnTimer_conditions_epoch : (s.startTurnTimer).conditions.epoch = s.conditions.epoch := rfl
@[simp] theorem State.startTurnTimer_conditions_turn : (s.startTurnTimer).conditions.turn = s.conditions.turn := rfl
@[simp] theorem State.startTurnTimer_conditions_timer : (s.startTurnTimer).conditions.timer = some s.link.parameters.turnPeriod := rfl
@[simp] theorem State.startTurnTimer_node (i : Nat) : (s.startTurnTimer).node i = s.node i := rfl
@[simp] theorem State.startTurnTimer_edge (i : Nat) : (s.startTurnTimer).edge i = s.edge i := rfl
@[simp] theorem State.startTurnTimer_adjacent (i : Nat) : (s.startTurnTimer).adjacent i = s.adjacent i := rfl
@[simp] theorem State.startTurnTimer_group (i : Nat) : (s.startTurnTimer).group i = s.group i := rfl
@[simp] theorem State.startTurnTimer_member (i : Nat) : (s.startTurnTimer).member i = s.member i := rfl
@[simp] theorem State.startTurnTimer_directoryEntry (i : Nat) : (s.startTurnTimer).directoryEntry i = s.directoryEntry i := rfl
@[simp] theorem State.startTurnTimer_gateDefault (i : Nat) : (s.startTurnTimer).gateDefault i = s.gateDefault i := rfl
@[simp] theorem State.startTurnTimer_profile (i : Nat) : (s.startTurnTimer).profile i = s.profile i := rfl
@[simp] theorem State.startTurnTimer_screenRecord (i : Nat) : (s.startTurnTimer).screenRecord i = s.screenRecord i := rfl
@[simp] theorem State.startTurnTimer_channelConfig (i : Nat) : (s.startTurnTimer).channelConfig i = s.channelConfig i := rfl
@[simp] theorem State.startTurnTimer_scheduleEntry (i : Nat) : (s.startTurnTimer).scheduleEntry i = s.scheduleEntry i := rfl
@[simp] theorem State.startTurnTimer_closure (i : Nat) : (s.startTurnTimer).closure i = s.closure i := rfl
@[simp] theorem State.startTurnTimer_motion (i : Nat) : (s.startTurnTimer).motion i = s.motion i := rfl
@[simp] theorem State.startTurnTimer_gate (i : Nat) : (s.startTurnTimer).gate i = s.gate i := rfl
@[simp] theorem State.startTurnTimer_published (i : Nat) : (s.startTurnTimer).published i = s.published i := rfl
@[simp] theorem State.startTurnTimer_channel (i : Nat) : (s.startTurnTimer).channel i = s.channel i := rfl
@[simp] theorem State.startTurnTimer_screen (i : Nat) : (s.startTurnTimer).screen i = s.screen i := rfl
@[simp] theorem State.startTurnTimer_lane (i : Nat) : (s.startTurnTimer).lane i = s.lane i := rfl
@[simp] theorem State.startTurnTimer_slot (i : Nat) : (s.startTurnTimer).slot i = s.slot i := rfl
@[simp] theorem State.startTurnTimer_anySearching : (s.startTurnTimer).anySearching = s.anySearching := rfl
@[simp] theorem State.startTurnTimer_lowestFreeLane : (s.startTurnTimer).lowestFreeLane = s.lowestFreeLane := rfl
@[simp] theorem State.startTurnTimer_lowestFreeSlot : (s.startTurnTimer).lowestFreeSlot = s.lowestFreeSlot := rfl
@[simp] theorem State.startTurnTimer_transferRuns : (s.startTurnTimer).transferRuns = s.transferRuns := rfl
@[simp] theorem State.startTurnTimer_running : (s.startTurnTimer).running = s.running := rfl

end

/-! ### State.setLate -/

section

variable (s : State) (l : List Nat)

@[simp] theorem State.setLate_pending : (s.setLate l).pending = s.pending := rfl
@[simp] theorem State.setLate_pins : (s.setLate l).pins = s.pins := rfl
@[simp] theorem State.setLate_site : (s.setLate l).site = s.site := rfl
@[simp] theorem State.setLate_transfer : (s.setLate l).transfer = s.transfer := rfl
@[simp] theorem State.setLate_conditions : (s.setLate l).conditions = s.conditions := rfl
@[simp] theorem State.setLate_flow : (s.setLate l).flow = s.flow := rfl
@[simp] theorem State.setLate_dispatcher : (s.setLate l).dispatcher = s.dispatcher := rfl
@[simp] theorem State.setLate_lanes : (s.setLate l).lanes = s.lanes := rfl
@[simp] theorem State.setLate_store : (s.setLate l).store = s.store := rfl
@[simp] theorem State.setLate_egress : (s.setLate l).egress = s.egress := rfl
@[simp] theorem State.setLate_link : (s.setLate l).link = s.link := rfl
@[simp] theorem State.setLate_schedule_clockSet : (s.setLate l).schedule.clockSet = s.schedule.clockSet := rfl
@[simp] theorem State.setLate_schedule_second : (s.setLate l).schedule.second = s.schedule.second := rfl
@[simp] theorem State.setLate_schedule_day : (s.setLate l).schedule.day = s.schedule.day := rfl
@[simp] theorem State.setLate_schedule_late : (s.setLate l).schedule.late = l := rfl
@[simp] theorem State.setLate_schedule_boundaryDue : (s.setLate l).schedule.boundaryDue = s.schedule.boundaryDue := rfl
@[simp] theorem State.setLate_node (i : Nat) : (s.setLate l).node i = s.node i := rfl
@[simp] theorem State.setLate_edge (i : Nat) : (s.setLate l).edge i = s.edge i := rfl
@[simp] theorem State.setLate_adjacent (i : Nat) : (s.setLate l).adjacent i = s.adjacent i := rfl
@[simp] theorem State.setLate_group (i : Nat) : (s.setLate l).group i = s.group i := rfl
@[simp] theorem State.setLate_member (i : Nat) : (s.setLate l).member i = s.member i := rfl
@[simp] theorem State.setLate_directoryEntry (i : Nat) : (s.setLate l).directoryEntry i = s.directoryEntry i := rfl
@[simp] theorem State.setLate_gateDefault (i : Nat) : (s.setLate l).gateDefault i = s.gateDefault i := rfl
@[simp] theorem State.setLate_profile (i : Nat) : (s.setLate l).profile i = s.profile i := rfl
@[simp] theorem State.setLate_screenRecord (i : Nat) : (s.setLate l).screenRecord i = s.screenRecord i := rfl
@[simp] theorem State.setLate_channelConfig (i : Nat) : (s.setLate l).channelConfig i = s.channelConfig i := rfl
@[simp] theorem State.setLate_scheduleEntry (i : Nat) : (s.setLate l).scheduleEntry i = s.scheduleEntry i := rfl
@[simp] theorem State.setLate_closure (i : Nat) : (s.setLate l).closure i = s.closure i := rfl
@[simp] theorem State.setLate_motion (i : Nat) : (s.setLate l).motion i = s.motion i := rfl
@[simp] theorem State.setLate_gate (i : Nat) : (s.setLate l).gate i = s.gate i := rfl
@[simp] theorem State.setLate_published (i : Nat) : (s.setLate l).published i = s.published i := rfl
@[simp] theorem State.setLate_channel (i : Nat) : (s.setLate l).channel i = s.channel i := rfl
@[simp] theorem State.setLate_screen (i : Nat) : (s.setLate l).screen i = s.screen i := rfl
@[simp] theorem State.setLate_lane (i : Nat) : (s.setLate l).lane i = s.lane i := rfl
@[simp] theorem State.setLate_slot (i : Nat) : (s.setLate l).slot i = s.slot i := rfl
@[simp] theorem State.setLate_anySearching : (s.setLate l).anySearching = s.anySearching := rfl
@[simp] theorem State.setLate_lowestFreeLane : (s.setLate l).lowestFreeLane = s.lowestFreeLane := rfl
@[simp] theorem State.setLate_lowestFreeSlot : (s.setLate l).lowestFreeSlot = s.lowestFreeSlot := rfl
@[simp] theorem State.setLate_transferRuns : (s.setLate l).transferRuns = s.transferRuns := rfl
@[simp] theorem State.setLate_running : (s.setLate l).running = s.running := rfl

end

/-! ### State.setDrain -/

section

variable (s : State) (d : Option Drain)

@[simp] theorem State.setDrain_pending : (s.setDrain d).pending = s.pending := rfl
@[simp] theorem State.setDrain_pins : (s.setDrain d).pins = s.pins := rfl
@[simp] theorem State.setDrain_transfer : (s.setDrain d).transfer = s.transfer := rfl
@[simp] theorem State.setDrain_conditions : (s.setDrain d).conditions = s.conditions := rfl
@[simp] theorem State.setDrain_schedule : (s.setDrain d).schedule = s.schedule := rfl
@[simp] theorem State.setDrain_flow : (s.setDrain d).flow = s.flow := rfl
@[simp] theorem State.setDrain_dispatcher : (s.setDrain d).dispatcher = s.dispatcher := rfl
@[simp] theorem State.setDrain_lanes : (s.setDrain d).lanes = s.lanes := rfl
@[simp] theorem State.setDrain_store : (s.setDrain d).store = s.store := rfl
@[simp] theorem State.setDrain_egress : (s.setDrain d).egress = s.egress := rfl
@[simp] theorem State.setDrain_link : (s.setDrain d).link = s.link := rfl
@[simp] theorem State.setDrain_site_header : (s.setDrain d).site.header = s.site.header := rfl
@[simp] theorem State.setDrain_site_nodes : (s.setDrain d).site.nodes = s.site.nodes := rfl
@[simp] theorem State.setDrain_site_edges : (s.setDrain d).site.edges = s.site.edges := rfl
@[simp] theorem State.setDrain_site_adjacency : (s.setDrain d).site.adjacency = s.site.adjacency := rfl
@[simp] theorem State.setDrain_site_groups : (s.setDrain d).site.groups = s.site.groups := rfl
@[simp] theorem State.setDrain_site_members : (s.setDrain d).site.members = s.site.members := rfl
@[simp] theorem State.setDrain_site_directory : (s.setDrain d).site.directory = s.site.directory := rfl
@[simp] theorem State.setDrain_site_gates : (s.setDrain d).site.gates = s.site.gates := rfl
@[simp] theorem State.setDrain_site_profiles : (s.setDrain d).site.profiles = s.site.profiles := rfl
@[simp] theorem State.setDrain_site_screens : (s.setDrain d).site.screens = s.site.screens := rfl
@[simp] theorem State.setDrain_site_channels : (s.setDrain d).site.channels = s.site.channels := rfl
@[simp] theorem State.setDrain_site_schedule : (s.setDrain d).site.schedule = s.site.schedule := rfl
@[simp] theorem State.setDrain_site_state : (s.setDrain d).site.state = s.site.state := rfl
@[simp] theorem State.setDrain_site_generation : (s.setDrain d).site.generation = s.site.generation := rfl
@[simp] theorem State.setDrain_site_drain : (s.setDrain d).site.drain = d := rfl
@[simp] theorem State.setDrain_node (i : Nat) : (s.setDrain d).node i = s.node i := rfl
@[simp] theorem State.setDrain_edge (i : Nat) : (s.setDrain d).edge i = s.edge i := rfl
@[simp] theorem State.setDrain_adjacent (i : Nat) : (s.setDrain d).adjacent i = s.adjacent i := rfl
@[simp] theorem State.setDrain_group (i : Nat) : (s.setDrain d).group i = s.group i := rfl
@[simp] theorem State.setDrain_member (i : Nat) : (s.setDrain d).member i = s.member i := rfl
@[simp] theorem State.setDrain_directoryEntry (i : Nat) : (s.setDrain d).directoryEntry i = s.directoryEntry i := rfl
@[simp] theorem State.setDrain_gateDefault (i : Nat) : (s.setDrain d).gateDefault i = s.gateDefault i := rfl
@[simp] theorem State.setDrain_profile (i : Nat) : (s.setDrain d).profile i = s.profile i := rfl
@[simp] theorem State.setDrain_screenRecord (i : Nat) : (s.setDrain d).screenRecord i = s.screenRecord i := rfl
@[simp] theorem State.setDrain_channelConfig (i : Nat) : (s.setDrain d).channelConfig i = s.channelConfig i := rfl
@[simp] theorem State.setDrain_scheduleEntry (i : Nat) : (s.setDrain d).scheduleEntry i = s.scheduleEntry i := rfl
@[simp] theorem State.setDrain_closure (i : Nat) : (s.setDrain d).closure i = s.closure i := rfl
@[simp] theorem State.setDrain_motion (i : Nat) : (s.setDrain d).motion i = s.motion i := rfl
@[simp] theorem State.setDrain_gate (i : Nat) : (s.setDrain d).gate i = s.gate i := rfl
@[simp] theorem State.setDrain_published (i : Nat) : (s.setDrain d).published i = s.published i := rfl
@[simp] theorem State.setDrain_channel (i : Nat) : (s.setDrain d).channel i = s.channel i := rfl
@[simp] theorem State.setDrain_screen (i : Nat) : (s.setDrain d).screen i = s.screen i := rfl
@[simp] theorem State.setDrain_lane (i : Nat) : (s.setDrain d).lane i = s.lane i := rfl
@[simp] theorem State.setDrain_slot (i : Nat) : (s.setDrain d).slot i = s.slot i := rfl
@[simp] theorem State.setDrain_anySearching : (s.setDrain d).anySearching = s.anySearching := rfl
@[simp] theorem State.setDrain_lowestFreeLane : (s.setDrain d).lowestFreeLane = s.lowestFreeLane := rfl
@[simp] theorem State.setDrain_lowestFreeSlot : (s.setDrain d).lowestFreeSlot = s.lowestFreeSlot := rfl
@[simp] theorem State.setDrain_transferRuns : (s.setDrain d).transferRuns = s.transferRuns := rfl
@[simp] theorem State.setDrain_running : (s.setDrain d).running = s.running := rfl

end

/-! ### State.setEgress -/

section

variable (s : State) (e : EgressControl)

@[simp] theorem State.setEgress_pending : (s.setEgress e).pending = s.pending := rfl
@[simp] theorem State.setEgress_pins : (s.setEgress e).pins = s.pins := rfl
@[simp] theorem State.setEgress_site : (s.setEgress e).site = s.site := rfl
@[simp] theorem State.setEgress_transfer : (s.setEgress e).transfer = s.transfer := rfl
@[simp] theorem State.setEgress_conditions : (s.setEgress e).conditions = s.conditions := rfl
@[simp] theorem State.setEgress_schedule : (s.setEgress e).schedule = s.schedule := rfl
@[simp] theorem State.setEgress_flow : (s.setEgress e).flow = s.flow := rfl
@[simp] theorem State.setEgress_dispatcher : (s.setEgress e).dispatcher = s.dispatcher := rfl
@[simp] theorem State.setEgress_lanes : (s.setEgress e).lanes = s.lanes := rfl
@[simp] theorem State.setEgress_store : (s.setEgress e).store = s.store := rfl
@[simp] theorem State.setEgress_link : (s.setEgress e).link = s.link := rfl
@[simp] theorem State.setEgress_egress : (s.setEgress e).egress = e := rfl
@[simp] theorem State.setEgress_node (i : Nat) : (s.setEgress e).node i = s.node i := rfl
@[simp] theorem State.setEgress_edge (i : Nat) : (s.setEgress e).edge i = s.edge i := rfl
@[simp] theorem State.setEgress_adjacent (i : Nat) : (s.setEgress e).adjacent i = s.adjacent i := rfl
@[simp] theorem State.setEgress_group (i : Nat) : (s.setEgress e).group i = s.group i := rfl
@[simp] theorem State.setEgress_member (i : Nat) : (s.setEgress e).member i = s.member i := rfl
@[simp] theorem State.setEgress_directoryEntry (i : Nat) : (s.setEgress e).directoryEntry i = s.directoryEntry i := rfl
@[simp] theorem State.setEgress_gateDefault (i : Nat) : (s.setEgress e).gateDefault i = s.gateDefault i := rfl
@[simp] theorem State.setEgress_profile (i : Nat) : (s.setEgress e).profile i = s.profile i := rfl
@[simp] theorem State.setEgress_screenRecord (i : Nat) : (s.setEgress e).screenRecord i = s.screenRecord i := rfl
@[simp] theorem State.setEgress_channelConfig (i : Nat) : (s.setEgress e).channelConfig i = s.channelConfig i := rfl
@[simp] theorem State.setEgress_scheduleEntry (i : Nat) : (s.setEgress e).scheduleEntry i = s.scheduleEntry i := rfl
@[simp] theorem State.setEgress_closure (i : Nat) : (s.setEgress e).closure i = s.closure i := rfl
@[simp] theorem State.setEgress_motion (i : Nat) : (s.setEgress e).motion i = s.motion i := rfl
@[simp] theorem State.setEgress_gate (i : Nat) : (s.setEgress e).gate i = s.gate i := rfl
@[simp] theorem State.setEgress_published (i : Nat) : (s.setEgress e).published i = s.published i := rfl
@[simp] theorem State.setEgress_channel (i : Nat) : (s.setEgress e).channel i = s.channel i := rfl
@[simp] theorem State.setEgress_screen (i : Nat) : (s.setEgress e).screen i = s.screen i := rfl
@[simp] theorem State.setEgress_lane (i : Nat) : (s.setEgress e).lane i = s.lane i := rfl
@[simp] theorem State.setEgress_slot (i : Nat) : (s.setEgress e).slot i = s.slot i := rfl
@[simp] theorem State.setEgress_anySearching : (s.setEgress e).anySearching = s.anySearching := rfl
@[simp] theorem State.setEgress_lowestFreeLane : (s.setEgress e).lowestFreeLane = s.lowestFreeLane := rfl
@[simp] theorem State.setEgress_lowestFreeSlot : (s.setEgress e).lowestFreeSlot = s.lowestFreeSlot := rfl
@[simp] theorem State.setEgress_transferRuns : (s.setEgress e).transferRuns = s.transferRuns := rfl
@[simp] theorem State.setEgress_running : (s.setEgress e).running = s.running := rfl

end

/-! ### State.setParameters -/

section

variable (s : State) (p : Parameters)

@[simp] theorem State.setParameters_pending : (s.setParameters p).pending = s.pending := rfl
@[simp] theorem State.setParameters_pins : (s.setParameters p).pins = s.pins := rfl
@[simp] theorem State.setParameters_site : (s.setParameters p).site = s.site := rfl
@[simp] theorem State.setParameters_transfer : (s.setParameters p).transfer = s.transfer := rfl
@[simp] theorem State.setParameters_conditions : (s.setParameters p).conditions = s.conditions := rfl
@[simp] theorem State.setParameters_schedule : (s.setParameters p).schedule = s.schedule := rfl
@[simp] theorem State.setParameters_flow : (s.setParameters p).flow = s.flow := rfl
@[simp] theorem State.setParameters_dispatcher : (s.setParameters p).dispatcher = s.dispatcher := rfl
@[simp] theorem State.setParameters_lanes : (s.setParameters p).lanes = s.lanes := rfl
@[simp] theorem State.setParameters_store : (s.setParameters p).store = s.store := rfl
@[simp] theorem State.setParameters_egress : (s.setParameters p).egress = s.egress := rfl
@[simp] theorem State.setParameters_link_reception : (s.setParameters p).link.reception = s.link.reception := rfl
@[simp] theorem State.setParameters_link_assembled : (s.setParameters p).link.assembled = s.link.assembled := rfl
@[simp] theorem State.setParameters_link_gapTimer : (s.setParameters p).link.gapTimer = s.link.gapTimer := rfl
@[simp] theorem State.setParameters_link_replies : (s.setParameters p).link.replies = s.link.replies := rfl
@[simp] theorem State.setParameters_link_sending : (s.setParameters p).link.sending = s.link.sending := rfl
@[simp] theorem State.setParameters_link_notices : (s.setParameters p).link.notices = s.link.notices := rfl
@[simp] theorem State.setParameters_link_overrunMark : (s.setParameters p).link.overrunMark = s.link.overrunMark := rfl
@[simp] theorem State.setParameters_link_dropped : (s.setParameters p).link.dropped = s.link.dropped := rfl
@[simp] theorem State.setParameters_link_startPending : (s.setParameters p).link.startPending = s.link.startPending := rfl
@[simp] theorem State.setParameters_link_resetKind : (s.setParameters p).link.resetKind = s.link.resetKind := rfl
@[simp] theorem State.setParameters_link_repeatTimer : (s.setParameters p).link.repeatTimer = s.link.repeatTimer := rfl
@[simp] theorem State.setParameters_link_softReset : (s.setParameters p).link.softReset = s.link.softReset := rfl
@[simp] theorem State.setParameters_link_parameters : (s.setParameters p).link.parameters = p := rfl
@[simp] theorem State.setParameters_node (i : Nat) : (s.setParameters p).node i = s.node i := rfl
@[simp] theorem State.setParameters_edge (i : Nat) : (s.setParameters p).edge i = s.edge i := rfl
@[simp] theorem State.setParameters_adjacent (i : Nat) : (s.setParameters p).adjacent i = s.adjacent i := rfl
@[simp] theorem State.setParameters_group (i : Nat) : (s.setParameters p).group i = s.group i := rfl
@[simp] theorem State.setParameters_member (i : Nat) : (s.setParameters p).member i = s.member i := rfl
@[simp] theorem State.setParameters_directoryEntry (i : Nat) : (s.setParameters p).directoryEntry i = s.directoryEntry i := rfl
@[simp] theorem State.setParameters_gateDefault (i : Nat) : (s.setParameters p).gateDefault i = s.gateDefault i := rfl
@[simp] theorem State.setParameters_profile (i : Nat) : (s.setParameters p).profile i = s.profile i := rfl
@[simp] theorem State.setParameters_screenRecord (i : Nat) : (s.setParameters p).screenRecord i = s.screenRecord i := rfl
@[simp] theorem State.setParameters_channelConfig (i : Nat) : (s.setParameters p).channelConfig i = s.channelConfig i := rfl
@[simp] theorem State.setParameters_scheduleEntry (i : Nat) : (s.setParameters p).scheduleEntry i = s.scheduleEntry i := rfl
@[simp] theorem State.setParameters_closure (i : Nat) : (s.setParameters p).closure i = s.closure i := rfl
@[simp] theorem State.setParameters_motion (i : Nat) : (s.setParameters p).motion i = s.motion i := rfl
@[simp] theorem State.setParameters_gate (i : Nat) : (s.setParameters p).gate i = s.gate i := rfl
@[simp] theorem State.setParameters_published (i : Nat) : (s.setParameters p).published i = s.published i := rfl
@[simp] theorem State.setParameters_channel (i : Nat) : (s.setParameters p).channel i = s.channel i := rfl
@[simp] theorem State.setParameters_screen (i : Nat) : (s.setParameters p).screen i = s.screen i := rfl
@[simp] theorem State.setParameters_lane (i : Nat) : (s.setParameters p).lane i = s.lane i := rfl
@[simp] theorem State.setParameters_slot (i : Nat) : (s.setParameters p).slot i = s.slot i := rfl
@[simp] theorem State.setParameters_anySearching : (s.setParameters p).anySearching = s.anySearching := rfl
@[simp] theorem State.setParameters_lowestFreeLane : (s.setParameters p).lowestFreeLane = s.lowestFreeLane := rfl
@[simp] theorem State.setParameters_lowestFreeSlot : (s.setParameters p).lowestFreeSlot = s.lowestFreeSlot := rfl
@[simp] theorem State.setParameters_transferRuns : (s.setParameters p).transferRuns = s.transferRuns := rfl
@[simp] theorem State.setParameters_running : (s.setParameters p).running = s.running := rfl

end

/-! ### State.offer -/

section

variable (s : State) (n : Notice)

@[simp] theorem State.offer_pending : (s.offer n).pending = s.pending := rfl
@[simp] theorem State.offer_pins : (s.offer n).pins = s.pins := rfl
@[simp] theorem State.offer_site : (s.offer n).site = s.site := rfl
@[simp] theorem State.offer_transfer : (s.offer n).transfer = s.transfer := rfl
@[simp] theorem State.offer_conditions : (s.offer n).conditions = s.conditions := rfl
@[simp] theorem State.offer_schedule : (s.offer n).schedule = s.schedule := rfl
@[simp] theorem State.offer_flow : (s.offer n).flow = s.flow := rfl
@[simp] theorem State.offer_dispatcher : (s.offer n).dispatcher = s.dispatcher := rfl
@[simp] theorem State.offer_lanes : (s.offer n).lanes = s.lanes := rfl
@[simp] theorem State.offer_store : (s.offer n).store = s.store := rfl
@[simp] theorem State.offer_egress : (s.offer n).egress = s.egress := rfl
@[simp] theorem State.offer_link : (s.offer n).link = s.link.offer n := rfl
@[simp] theorem State.offer_node (i : Nat) : (s.offer n).node i = s.node i := rfl
@[simp] theorem State.offer_edge (i : Nat) : (s.offer n).edge i = s.edge i := rfl
@[simp] theorem State.offer_adjacent (i : Nat) : (s.offer n).adjacent i = s.adjacent i := rfl
@[simp] theorem State.offer_group (i : Nat) : (s.offer n).group i = s.group i := rfl
@[simp] theorem State.offer_member (i : Nat) : (s.offer n).member i = s.member i := rfl
@[simp] theorem State.offer_directoryEntry (i : Nat) : (s.offer n).directoryEntry i = s.directoryEntry i := rfl
@[simp] theorem State.offer_gateDefault (i : Nat) : (s.offer n).gateDefault i = s.gateDefault i := rfl
@[simp] theorem State.offer_profile (i : Nat) : (s.offer n).profile i = s.profile i := rfl
@[simp] theorem State.offer_screenRecord (i : Nat) : (s.offer n).screenRecord i = s.screenRecord i := rfl
@[simp] theorem State.offer_channelConfig (i : Nat) : (s.offer n).channelConfig i = s.channelConfig i := rfl
@[simp] theorem State.offer_scheduleEntry (i : Nat) : (s.offer n).scheduleEntry i = s.scheduleEntry i := rfl
@[simp] theorem State.offer_closure (i : Nat) : (s.offer n).closure i = s.closure i := rfl
@[simp] theorem State.offer_motion (i : Nat) : (s.offer n).motion i = s.motion i := rfl
@[simp] theorem State.offer_gate (i : Nat) : (s.offer n).gate i = s.gate i := rfl
@[simp] theorem State.offer_published (i : Nat) : (s.offer n).published i = s.published i := rfl
@[simp] theorem State.offer_channel (i : Nat) : (s.offer n).channel i = s.channel i := rfl
@[simp] theorem State.offer_screen (i : Nat) : (s.offer n).screen i = s.screen i := rfl
@[simp] theorem State.offer_lane (i : Nat) : (s.offer n).lane i = s.lane i := rfl
@[simp] theorem State.offer_slot (i : Nat) : (s.offer n).slot i = s.slot i := rfl
@[simp] theorem State.offer_anySearching : (s.offer n).anySearching = s.anySearching := rfl
@[simp] theorem State.offer_lowestFreeLane : (s.offer n).lowestFreeLane = s.lowestFreeLane := rfl
@[simp] theorem State.offer_lowestFreeSlot : (s.offer n).lowestFreeSlot = s.lowestFreeSlot := rfl
@[simp] theorem State.offer_transferRuns : (s.offer n).transferRuns = s.transferRuns := rfl
@[simp] theorem State.offer_running : (s.offer n).running = s.running := rfl

end

/-! ### Offering a notice leaves everything of the link but the notice queue, the mark and the count -/

section

variable (k : HostLink) (n : Notice)

@[simp] theorem HostLink.offer_reception : (k.offer n).reception = k.reception := by
  unfold HostLink.offer; split <;> [rfl; (split <;> [rfl; (split <;> rfl)])]
@[simp] theorem HostLink.offer_assembled : (k.offer n).assembled = k.assembled := by
  unfold HostLink.offer; split <;> [rfl; (split <;> [rfl; (split <;> rfl)])]
@[simp] theorem HostLink.offer_gapTimer : (k.offer n).gapTimer = k.gapTimer := by
  unfold HostLink.offer; split <;> [rfl; (split <;> [rfl; (split <;> rfl)])]
@[simp] theorem HostLink.offer_replies : (k.offer n).replies = k.replies := by
  unfold HostLink.offer; split <;> [rfl; (split <;> [rfl; (split <;> rfl)])]
@[simp] theorem HostLink.offer_sending : (k.offer n).sending = k.sending := by
  unfold HostLink.offer; split <;> [rfl; (split <;> [rfl; (split <;> rfl)])]
@[simp] theorem HostLink.offer_startPending : (k.offer n).startPending = k.startPending := by
  unfold HostLink.offer; split <;> [rfl; (split <;> [rfl; (split <;> rfl)])]
@[simp] theorem HostLink.offer_resetKind : (k.offer n).resetKind = k.resetKind := by
  unfold HostLink.offer; split <;> [rfl; (split <;> [rfl; (split <;> rfl)])]
@[simp] theorem HostLink.offer_repeatTimer : (k.offer n).repeatTimer = k.repeatTimer := by
  unfold HostLink.offer; split <;> [rfl; (split <;> [rfl; (split <;> rfl)])]
@[simp] theorem HostLink.offer_softReset : (k.offer n).softReset = k.softReset := by
  unfold HostLink.offer; split <;> [rfl; (split <;> [rfl; (split <;> rfl)])]
@[simp] theorem HostLink.offer_parameters : (k.offer n).parameters = k.parameters := by
  unfold HostLink.offer; split <;> [rfl; (split <;> [rfl; (split <;> rfl)])]
@[simp] theorem HostLink.entryLeft_reception : k.entryLeft.reception = k.reception := by
  unfold HostLink.entryLeft; split <;> simp
@[simp] theorem HostLink.entryLeft_assembled : k.entryLeft.assembled = k.assembled := by
  unfold HostLink.entryLeft; split <;> simp
@[simp] theorem HostLink.entryLeft_gapTimer : k.entryLeft.gapTimer = k.gapTimer := by
  unfold HostLink.entryLeft; split <;> simp
@[simp] theorem HostLink.entryLeft_replies : k.entryLeft.replies = k.replies := by
  unfold HostLink.entryLeft; split <;> simp
@[simp] theorem HostLink.entryLeft_sending : k.entryLeft.sending = k.sending := by
  unfold HostLink.entryLeft; split <;> simp
@[simp] theorem HostLink.entryLeft_startPending : k.entryLeft.startPending = k.startPending := by
  unfold HostLink.entryLeft; split <;> simp
@[simp] theorem HostLink.entryLeft_resetKind : k.entryLeft.resetKind = k.resetKind := by
  unfold HostLink.entryLeft; split <;> simp
@[simp] theorem HostLink.entryLeft_repeatTimer : k.entryLeft.repeatTimer = k.repeatTimer := by
  unfold HostLink.entryLeft; split <;> simp
@[simp] theorem HostLink.entryLeft_softReset : k.entryLeft.softReset = k.softReset := by
  unfold HostLink.entryLeft; split <;> simp
@[simp] theorem HostLink.entryLeft_parameters : k.entryLeft.parameters = k.parameters := by
  unfold HostLink.entryLeft; split <;> simp
@[simp] theorem HostLink.toHunt_sending : k.toHunt.sending = k.sending := rfl
@[simp] theorem HostLink.toHunt_notices : k.toHunt.notices = k.notices := rfl
@[simp] theorem HostLink.toHunt_overrunMark : k.toHunt.overrunMark = k.overrunMark := rfl
@[simp] theorem HostLink.toHunt_dropped : k.toHunt.dropped = k.dropped := rfl
@[simp] theorem HostLink.toHunt_startPending : k.toHunt.startPending = k.startPending := rfl
@[simp] theorem HostLink.toHunt_resetKind : k.toHunt.resetKind = k.resetKind := rfl
@[simp] theorem HostLink.toHunt_repeatTimer : k.toHunt.repeatTimer = k.repeatTimer := rfl
@[simp] theorem HostLink.toHunt_softReset : k.toHunt.softReset = k.softReset := rfl
@[simp] theorem HostLink.toHunt_parameters : k.toHunt.parameters = k.parameters := rfl
@[simp] theorem HostLink.toHunt_replies : k.toHunt.replies = k.replies := rfl

end

end Sys2Proof.Machine
end

