-- ==== Sys2Proof/Laws/Requests.lean ====
section
/-! SUPPORT. Taking a frame: once for all, what the receiver, the reply queue and the checks before a block do with a frame
(R168, R169, R171, R177). -/

namespace Sys2Proof.Machine

/-- The state in which a block deals with a frame: the receiver is back in HUNT. -/
def State.hunting (s : State) : State := { s with link := s.link.toHunt }

theorem State.running_iff (s : State) : s.running = true ↔ s.Running := by
  unfold State.running State.Running; cases s.pins.resetAsserted <;> simp

theorem State.listening_iff (s : State) : s.listening = true ↔ s.Running ∧ s.link.softReset = false := by
  unfold State.listening; rw [Bool.and_eq_true, State.running_iff]; simp

theorem State.event_of_running {s : State} (h : s.Running) (effect : State → State) : s.event effect = effect s := by
  unfold State.event; rw [if_pos ((State.running_iff s).2 h)]

theorem State.event_of_reset {s : State} (h : s.pins.resetAsserted = true) (effect : State → State) :
    s.event effect = s := by
  unfold State.event State.running; simp [h]

/-- A frame that is taken is dealt with in HUNT. -/
theorem State.judge_of_open {s : State} (h : s.Open) (dealt : State → State) : s.judge dealt = dealt s.hunting := by
  obtain ⟨h1, h2, h3⟩ := h
  unfold State.judge
  rw [if_pos ((State.listening_iff s).2 ⟨h1, h2⟩)]
  have : ¬ (HostLink.full s.link.toHunt = true) := fun hf => absurd (of_decide_eq_true hf) (show ¬ 7 ≤ s.link.replies.length by omega)
  exact if_neg this

/-- While RESET is asserted, or after a SOFT RESET, no frame is judged. -/
theorem State.judge_of_deaf {s : State} (h : s.pins.resetAsserted = true ∨ s.link.softReset = true)
    (dealt : State → State) : s.judge dealt = s := by
  unfold State.judge State.listening State.running
  rcases h with h | h <;> simp [h]

/-- A full reply queue takes no frame: its busy run grows. -/
theorem State.judge_of_full {s : State} (h1 : s.Running) (h2 : s.link.softReset = false) (h3 : 7 ≤ s.link.replies.length)
    (dealt : State → State) :
    s.judge dealt = { s with link := { s.link.toHunt with replies := growBusyRun s.link.replies } } := by
  unfold State.judge
  rw [if_pos ((State.listening_iff s).2 ⟨h1, h2⟩)]
  have : HostLink.full s.link.toHunt = true := decide_eq_true h3
  exact if_pos this

/-! ### Reception (R168) -/

/-- The two bytes after SYNC and the length they state. -/
theorem statedLength_of (sync lo hi : Byte) (rest : List Byte) :
    statedLength (sync :: lo :: hi :: rest) = lo.toNat + 256 * hi.toNat := by
  simp [statedLength, wordAt, ofLe]

@[simp] theorem HostLink.receiveAll_nil (k : HostLink) : k.receiveAll [] = k := rfl

/-- A byte that judges no frame is received, and the bytes after it follow. -/
theorem HostLink.receiveAll_taken {k : HostLink} {b : Byte} (h : k.judgesWith b = false) (rest : List Byte) :
    k.receiveAll (b :: rest) = (k.receive b).receiveAll rest := by
  simp [HostLink.receiveAll, h]

/-- Reception stands before the byte with which the frame is judged. -/
theorem HostLink.receiveAll_judged {k : HostLink} {b : Byte} (h : k.judgesWith b = true) (rest : List Byte) :
    k.receiveAll (b :: rest) = k := by
  simp [HostLink.receiveAll, h]

/-- Reception writes the state, the frame and the gap timer, and nothing else. -/
theorem HostLink.receiveAll_frame (bytes : List Byte) : ∀ k : HostLink, ∃ reception assembled gapTimer,
    k.receiveAll bytes = { k with reception := reception, assembled := assembled, gapTimer := gapTimer } := by
  induction bytes with
  | nil => exact fun k => ⟨k.reception, k.assembled, k.gapTimer, rfl⟩
  | cons b rest ih =>
    intro k
    cases h : k.judgesWith b with
    | true => exact ⟨k.reception, k.assembled, k.gapTimer, HostLink.receiveAll_judged h rest⟩
    | false =>
      obtain ⟨r, a, g, e⟩ := ih (k.receive b)
      refine ⟨r, a, g, (HostLink.receiveAll_taken h rest).trans (e.trans ?_)⟩
      unfold HostLink.receive
      split
      · split <;> rfl
      · rfl

/-- The bytes after SYNC are received while the part takes frames, and not otherwise. -/
theorem State.sync_of_listening {s : State} (h1 : s.Running) (h2 : s.link.softReset = false) (bytes : List Byte) :
    s.sync bytes = { s with link := s.link.receiveAll (0xA5 :: bytes) } :=
  if_pos ((State.listening_iff s).2 ⟨h1, h2⟩)

theorem State.sync_of_deaf {s : State} (h : s.pins.resetAsserted = true ∨ s.link.softReset = true) (bytes : List Byte) :
    s.sync bytes = s := by
  unfold State.sync State.listening State.running
  rcases h with h | h <;> simp [h]

/-! ### Payloads and requests -/

/-- Every allowed length fits a frame. -/
theorem RequestKind.lengthAllowed_fits {kind : RequestKind} {payload : List Byte}
    (h : kind.lengthAllowed payload = true) : payload.length ≤ 1024 := by
  cases kind <;> simp only [RequestKind.lengthAllowed, Config.payloadBytes, Bool.and_eq_true, decide_eq_true_eq] at h <;>
    omega

/-- A frame that is too long is answered ERROR, whatever its kind. -/
theorem State.take_of_tooLong (s : State) {kind : RequestKind} {payload : List Byte} (h : 1024 < payload.length)
    (block : State → Answer) : s.take kind payload block = s.answerError .badLength := if_pos h

theorem State.take_of_fits (s : State) {kind : RequestKind} {payload : List Byte} (h : payload.length ≤ 1024)
    (block : State → Answer) : s.take kind payload block = s.request kind (kind.lengthAllowed payload) block :=
  if_neg (Nat.not_lt.2 h)

/-- A request that is taken, of an allowed length and not refused before ACK START, is answered by its block. -/
theorem State.take_of_open {s : State} (h : s.Open) {kind : RequestKind} {payload : List Byte}
    (hl : kind.lengthAllowed payload = true) (ha : s.link.startPending = false ∨ kind.beforeAck = true)
    (block : State → Answer) : s.take kind payload block = (block s.hunting).replied kind := by
  rw [State.take_of_fits s (RequestKind.lengthAllowed_fits hl), State.request, State.judge_of_open h]
  have : ¬ ((s.hunting.link.startPending && !kind.beforeAck) = true) := by
    rcases ha with ha | ha <;> simp [State.hunting, ha]
  simp only [hl, Bool.not_true, this, if_false, Bool.false_eq_true]

theorem State.take_of_started {s : State} (h : s.Started) {kind : RequestKind} {payload : List Byte}
    (hl : kind.lengthAllowed payload = true) (block : State → Answer) :
    s.take kind payload block = (block s.hunting).replied kind :=
  State.take_of_open h.1 hl (.inl h.2) block

/-- A request of a wrong length is refused. -/
theorem State.take_of_wrongLength {s : State} (h : s.Open) {kind : RequestKind} {payload : List Byte}
    (hf : payload.length ≤ 1024) (hl : kind.lengthAllowed payload = false) (block : State → Answer) :
    s.take kind payload block = (refuse s.hunting .badLength).replied kind := by
  rw [State.take_of_fits s hf, State.request, State.judge_of_open h]
  simp only [hl, Bool.not_false, if_true]

/-- Before ACK START a request other than the four is refused. -/
theorem State.take_of_notStarted {s : State} (h : s.Open) {kind : RequestKind} {payload : List Byte}
    (hl : kind.lengthAllowed payload = true) (hp : s.link.startPending = true) (hk : kind.beforeAck = false)
    (block : State → Answer) : s.take kind payload block = (refuse s.hunting .notStarted).replied kind := by
  rw [State.take_of_fits s (RequestKind.lengthAllowed_fits hl), State.request, State.judge_of_open h]
  have : (s.hunting.link.startPending && !kind.beforeAck) = true := by simp [State.hunting, hp, hk]
  simp only [hl, Bool.not_true, this, if_true, if_false, Bool.false_eq_true]

/-- The reply of an answer whose state has left the link alone. -/
theorem State.replied_of_hunting (s : State) (kind : RequestKind) (code : ReplyCode) (data : List Byte) :
    Answer.replied { code := code, data := data, state := s.hunting } kind =
      s.answers (BitVec.ofNat 8 (0x80 + kind.code)) (le8 code.code ++ if code = .ok then data else []) := rfl

theorem State.refuse_replied (s : State) (kind : RequestKind) (code : ReplyCode) (h : code ≠ .ok) :
    (refuse s.hunting code).replied kind = s.answers (BitVec.ofNat 8 (0x80 + kind.code)) (le8 code.code) := by
  unfold refuse; rw [State.replied_of_hunting, if_neg h, List.append_nil]

@[simp] theorem State.hunting_pending (s : State) : s.hunting.pending = s.pending := rfl
@[simp] theorem State.hunting_pins (s : State) : s.hunting.pins = s.pins := rfl
@[simp] theorem State.hunting_site (s : State) : s.hunting.site = s.site := rfl
@[simp] theorem State.hunting_transfer (s : State) : s.hunting.transfer = s.transfer := rfl
@[simp] theorem State.hunting_conditions (s : State) : s.hunting.conditions = s.conditions := rfl
@[simp] theorem State.hunting_schedule (s : State) : s.hunting.schedule = s.schedule := rfl
@[simp] theorem State.hunting_flow (s : State) : s.hunting.flow = s.flow := rfl
@[simp] theorem State.hunting_dispatcher (s : State) : s.hunting.dispatcher = s.dispatcher := rfl
@[simp] theorem State.hunting_lanes (s : State) : s.hunting.lanes = s.lanes := rfl
@[simp] theorem State.hunting_store (s : State) : s.hunting.store = s.store := rfl
@[simp] theorem State.hunting_egress (s : State) : s.hunting.egress = s.egress := rfl
@[simp] theorem State.hunting_link (s : State) : s.hunting.link = s.link.toHunt := rfl

end Sys2Proof.Machine
end

