-- ==== Sys2Proof/Laws/Notices.lean ====
section
/-! SUPPORT. What offering notices can do to the host link (R175, R176), and when a lane is SEARCHING (R107). -/

namespace Sys2Proof.Machine

theorem State.anySearching_iff (s : State) : s.anySearching = true ↔ s.Searching := by
  simp [State.anySearching, State.Searching, Config.lanes]

theorem State.anySearching_eq_false_iff (s : State) : s.anySearching = false ↔ ¬ s.Searching := by
  rw [← State.anySearching_iff]; simp

/-- An offer writes the notice queue, the overrun mark and the dropped count, and nothing else of the link. -/
theorem HostLink.offer_frame (k : HostLink) (n : Notice) :
    ∃ notices mark count, k.offer n = { k with notices := notices, overrunMark := mark, dropped := count } := by
  unfold HostLink.offer
  split
  · exact ⟨k.notices, k.overrunMark, k.dropped, rfl⟩
  · split
    · exact ⟨_, _, _, rfl⟩
    · split <;> exact ⟨_, _, _, rfl⟩

theorem HostLink.offerAll_frame (k : HostLink) (notices : List Notice) :
    ∃ queue mark count, k.offerAll notices = { k with notices := queue, overrunMark := mark, dropped := count } := by
  induction notices generalizing k with
  | nil => exact ⟨k.notices, k.overrunMark, k.dropped, rfl⟩
  | cons n rest ih =>
    obtain ⟨a, b, c, h⟩ := k.offer_frame n
    obtain ⟨a', b', c', h'⟩ := ih (k.offer n)
    refine ⟨a', b', c', ?_⟩
    change (k.offer n).offerAll rest = _
    rw [h', h]

/-- An offer and the receiver's return to HUNT do not meet. -/
theorem HostLink.toHunt_offer (k : HostLink) (n : Notice) : k.toHunt.offer n = (k.offer n).toHunt := by
  have enabled : k.toHunt.enabled n = k.enabled n := rfl
  have notices : k.toHunt.notices = k.notices := rfl
  unfold HostLink.offer
  rw [enabled, notices]
  split
  · rfl
  · split
    · rfl
    · split <;> rfl

theorem HostLink.toHunt_offerAll (k : HostLink) (notices : List Notice) :
    k.toHunt.offerAll notices = (k.offerAll notices).toHunt := by
  induction notices generalizing k with
  | nil => rfl
  | cons n rest ih =>
    change (k.toHunt.offer n).offerAll rest = ((k.offer n).offerAll rest).toHunt
    rw [HostLink.toHunt_offer, ih]

theorem HostLink.offerAll_concat (k : HostLink) (notices : List Notice) (n : Notice) :
    (k.offerAll notices).offer n = k.offerAll (notices ++ [n]) := by
  simp [HostLink.offerAll]

theorem HostLink.offerAll_append (k : HostLink) (first second : List Notice) :
    (k.offerAll first).offerAll second = k.offerAll (first ++ second) := by
  simp [HostLink.offerAll]

end Sys2Proof.Machine
end

