-- ==== Sys2Proof/Laws/Tables.lean ====
section
/-! SUPPORT. The sparse tables: what a write leaves under every read, that every operation keeps the one canonical form, and
that equal contents are equal data. -/

namespace Sys2Proof.Machine

variable {α : Type} (cleared : α)

@[simp] theorem Table.get_nil (i : Nat) : Table.get cleared ([] : Table α) i = cleared := rfl

theorem Table.get_cons (k : Nat) (v : α) (t : Table α) (i : Nat) :
    Table.get cleared ((k, v) :: t) i = if k = i then v else Table.get cleared t i := rfl

/-- Under a canonical table from `least` on, an index below `least` reads as cleared. -/
theorem Table.get_of_lt [DecidableEq α] {least : Nat} {t : Table α} (h : Table.wfFrom cleared least t = true) {i : Nat}
    (hi : i < least) : Table.get cleared t i = cleared := by
  induction t generalizing least with
  | nil => rfl
  | cons x t ih =>
    obtain ⟨k, v⟩ := x
    simp only [Table.wfFrom, Bool.and_eq_true, decide_eq_true_eq] at h
    rw [Table.get_cons, if_neg (by omega)]
    exact ih h.2 (by omega)

theorem Table.wfFrom_mono [DecidableEq α] {least less : Nat} {t : Table α} (h : Table.wfFrom cleared least t = true)
    (hl : less ≤ least) : Table.wfFrom cleared less t = true := by
  cases t with
  | nil => rfl
  | cons x t =>
    obtain ⟨k, v⟩ := x
    simp only [Table.wfFrom, Bool.and_eq_true, decide_eq_true_eq] at h ⊢
    exact ⟨⟨by omega, h.1.2⟩, h.2⟩

@[simp] theorem Table.wf_nil [DecidableEq α] : Table.wf cleared ([] : Table α) = true := rfl

/-- A write leaves every other index as it reads. -/
theorem Table.get_set_of_ne [DecidableEq α] (t : Table α) {i j : Nat} (v : α) (h : j ≠ i) :
    Table.get cleared (Table.set cleared t i v) j = Table.get cleared t j := by
  induction t with
  | nil => unfold Table.set; split <;> simp [Table.get_cons, Ne.symm h]
  | cons x t ih =>
    obtain ⟨k, w⟩ := x
    unfold Table.set
    split
    · split
      · rfl
      · rw [Table.get_cons, if_neg (Ne.symm h)]
    · split
      · rename_i hk
        split
        · rw [Table.get_cons, if_neg (by omega)]
        · rw [Table.get_cons, Table.get_cons, if_neg (Ne.symm h), if_neg (by omega)]
      · rw [Table.get_cons, Table.get_cons, ih]

/-- An entry that is not the cleared one reads back in any table. -/
theorem Table.get_set_self_of_ne [DecidableEq α] (t : Table α) (i : Nat) {v : α} (h : v ≠ cleared) :
    Table.get cleared (Table.set cleared t i v) i = v := by
  induction t with
  | nil => simp [Table.set, h, Table.get_cons]
  | cons x t ih =>
    obtain ⟨k, w⟩ := x
    unfold Table.set
    split
    · simp [Table.get_cons]
    · split
      · simp [Table.get_cons]
      · rw [Table.get_cons, if_neg (by omega), ih]

theorem Table.get_setFrom_self [DecidableEq α] {least : Nat} (t : Table α) (h : Table.wfFrom cleared least t = true)
    (i : Nat) (v : α) : Table.get cleared (Table.set cleared t i v) i = v := by
  induction t generalizing least with
  | nil => unfold Table.set; split <;> simp_all [Table.get_cons]
  | cons x t ih =>
    obtain ⟨k, w⟩ := x
    simp only [Table.wfFrom, Bool.and_eq_true, decide_eq_true_eq] at h
    unfold Table.set
    split
    · split
      · rename_i hv
        rw [Table.get_cons, if_neg (by omega), Table.get_of_lt cleared h.2 (by omega), hv]
      · simp [Table.get_cons]
    · split
      · split
        · rename_i hv
          rw [Table.get_of_lt cleared h.2 (by omega), hv]
        · simp [Table.get_cons]
      · rw [Table.get_cons, if_neg (by omega), ih h.2]

/-- A written entry reads back in a canonical table. -/
theorem Table.get_set_self [DecidableEq α] {t : Table α} (h : Table.wf cleared t = true) (i : Nat) (v : α) :
    Table.get cleared (Table.set cleared t i v) i = v := Table.get_setFrom_self cleared t h i v

theorem Table.wfFrom_set [DecidableEq α] {least : Nat} {t : Table α} (h : Table.wfFrom cleared least t = true)
    {i : Nat} (hi : least ≤ i) (v : α) : Table.wfFrom cleared least (Table.set cleared t i v) = true := by
  induction t generalizing least with
  | nil => unfold Table.set; split <;> simp_all [Table.wfFrom]
  | cons x t ih =>
    obtain ⟨k, w⟩ := x
    have h' := h
    simp only [Table.wfFrom, Bool.and_eq_true, decide_eq_true_eq] at h'
    unfold Table.set
    split
    · split
      · exact h
      · simp only [Table.wfFrom, Bool.and_eq_true, decide_eq_true_eq]
        exact ⟨⟨hi, by assumption⟩, ⟨by omega, h'.1.2⟩, h'.2⟩
    · split
      · split
        · exact Table.wfFrom_mono cleared h'.2 (by omega)
        · simp only [Table.wfFrom, Bool.and_eq_true, decide_eq_true_eq]
          refine ⟨⟨hi, by assumption⟩, Table.wfFrom_mono cleared h'.2 (by omega)⟩
      · simp only [Table.wfFrom, Bool.and_eq_true, decide_eq_true_eq]
        exact ⟨h'.1, ih h'.2 (by omega)⟩

/-- A write keeps the canonical form. -/
theorem Table.wf_set [DecidableEq α] {t : Table α} (h : Table.wf cleared t = true) (i : Nat) (v : α) :
    Table.wf cleared (Table.set cleared t i v) = true := Table.wfFrom_set cleared h (Nat.zero_le i) v

theorem Table.eq_of_get_from [DecidableEq α] {least : Nat} {t u : Table α} (ht : Table.wfFrom cleared least t = true)
    (hu : Table.wfFrom cleared least u = true) (h : ∀ i, Table.get cleared t i = Table.get cleared u i) : t = u := by
  induction t generalizing least u with
  | nil =>
    cases u with
    | nil => rfl
    | cons x u =>
      obtain ⟨k, v⟩ := x
      simp only [Table.wfFrom, Bool.and_eq_true, decide_eq_true_eq] at hu
      exact absurd (h k).symm (by simp [Table.get_cons, hu.1.2])
  | cons x t ih =>
    obtain ⟨k, v⟩ := x
    have ht' := ht
    simp only [Table.wfFrom, Bool.and_eq_true, decide_eq_true_eq] at ht'
    cases u with
    | nil => exact absurd (h k) (by simp [Table.get_cons, ht'.1.2])
    | cons y u =>
      obtain ⟨j, w⟩ := y
      have hu' := hu
      simp only [Table.wfFrom, Bool.and_eq_true, decide_eq_true_eq] at hu'
      have hkj : k = j := by
        rcases Nat.lt_trichotomy k j with hlt | heq | hgt
        · have := h k
          rw [Table.get_cons, if_pos rfl, Table.get_cons, if_neg (by omega),
            Table.get_of_lt cleared hu'.2 (by omega)] at this
          exact absurd this ht'.1.2
        · exact heq
        · have := h j
          rw [Table.get_cons, if_neg (by omega), Table.get_of_lt cleared ht'.2 (by omega), Table.get_cons,
            if_pos rfl] at this
          exact absurd this.symm hu'.1.2
      subst hkj
      have hv : v = w := by simpa [Table.get_cons] using h k
      subst hv
      congr 1
      refine ih ht'.2 hu'.2 fun i => ?_
      by_cases hi : i ≤ k
      · rw [Table.get_of_lt cleared ht'.2 (by omega), Table.get_of_lt cleared hu'.2 (by omega)]
      · simpa [Table.get_cons, show k ≠ i by omega] using h i

/-- Canonical tables of equal contents are equal. -/
theorem Table.eq_of_get [DecidableEq α] {t u : Table α} (ht : Table.wf cleared t = true) (hu : Table.wf cleared u = true)
    (h : ∀ i, Table.get cleared t i = Table.get cleared u i) : t = u :=
  Table.eq_of_get_from cleared ht hu h

theorem Table.tabulate_succ [DecidableEq α] (count : Nat) (f : Nat → α) :
    Table.tabulate cleared (count + 1) f = Table.set cleared (Table.tabulate cleared count f) count (f count) := by
  simp [Table.tabulate, List.range_succ]

/-- A tabulated table is canonical. -/
theorem Table.wf_tabulate [DecidableEq α] (count : Nat) (f : Nat → α) :
    Table.wf cleared (Table.tabulate cleared count f) = true := by
  induction count with
  | zero => rfl
  | succ count ih => rw [Table.tabulate_succ]; exact Table.wf_set cleared ih _ _

/-- What a tabulated table reads as. -/
theorem Table.get_tabulate [DecidableEq α] (count : Nat) (f : Nat → α) (i : Nat) :
    Table.get cleared (Table.tabulate cleared count f) i = if i < count then f i else cleared := by
  induction count with
  | zero => rfl
  | succ count ih =>
    rw [Table.tabulate_succ]
    by_cases hi : i = count
    · subst hi
      rw [Table.get_set_self cleared (Table.wf_tabulate cleared _ f), if_pos (by omega)]
    · rw [Table.get_set_of_ne cleared _ _ hi, ih]
      by_cases hlt : i < count
      · rw [if_pos hlt, if_pos (by omega)]
      · rw [if_neg hlt, if_neg (by omega)]

end Sys2Proof.Machine
end

