-- ==== Sys2Proof/Laws/Dropping.lean ====
section
/-! SUPPORT. What dropping requests can do: their screens become IDLE and their notices are offered in order (R97, R98). -/

namespace Sys2Proof.Machine

theorem State.drop_all (s : State) (hw : Table.wf .idle s.dispatcher.screens = true) (requests : List Request)
    (reason : DropReason) :
    ∃ screens, requests.foldl (State.drop reason) s =
        { s with
          dispatcher := { s.dispatcher with screens := screens }
          link := s.link.offerAll (requests.map fun r => r.droppedNotice reason) } ∧
      Table.wf .idle screens = true ∧ (∀ r ∈ requests, Table.get .idle screens r.screen = .idle) ∧
      ∀ i, (∀ r ∈ requests, r.screen ≠ i) → Table.get .idle screens i = s.screen i := by
  induction requests generalizing s with
  | nil => exact ⟨s.dispatcher.screens, rfl, hw, by simp, fun i _ => rfl⟩
  | cons r rest ih =>
    obtain ⟨screens, h1, h2, h3, h4⟩ := ih (State.drop reason s r) (Table.wf_set _ hw _ _)
    refine ⟨screens, ?_, h2, ?_, ?_⟩
    · rw [List.foldl_cons, h1]; rfl
    · intro x hx
      by_cases hm : ∃ y ∈ rest, y.screen = x.screen
      · obtain ⟨y, hy, e⟩ := hm; rw [← e]; exact h3 y hy
      · rw [h4 x.screen (fun y hy e => hm ⟨y, hy, e⟩)]
        rcases List.mem_cons.1 hx with rfl | hx
        · exact Table.get_set_self _ hw _ _
        · exact absurd ⟨x, hx, rfl⟩ hm
    · intro i hi
      rw [h4 i (fun y hy => hi y (List.mem_cons_of_mem _ hy))]
      exact Table.get_set_of_ne _ _ _ (Ne.symm (hi r (List.mem_cons_self)))

theorem State.dropQueue_eq (s : State) (hw : Table.wf .idle s.dispatcher.screens = true) :
    ∃ screens, s.dropQueue =
        { s with
          dispatcher := { screens := screens, queue := [] }
          link := s.link.offerAll (s.dispatcher.queue.map fun e => e.request.droppedNotice .site) } ∧
      Table.wf .idle screens = true ∧
      (∀ e ∈ s.dispatcher.queue, Table.get .idle screens e.request.screen = .idle) ∧
      ∀ i, (∀ e ∈ s.dispatcher.queue, e.request.screen ≠ i) → Table.get .idle screens i = s.screen i := by
  obtain ⟨screens, h1, h2, h3, h4⟩ := s.drop_all hw (s.dispatcher.queue.map QueueEntry.request) .site
  refine ⟨screens, ?_, h2, ?_, ?_⟩
  · unfold State.dropQueue; rw [h1]; simp [State.setQueue, Function.comp_def]
  · intro e he; exact h3 e.request (List.mem_map_of_mem he)
  · intro i hi; apply h4; intro r hr; obtain ⟨e, he, rfl⟩ := List.mem_map.1 hr; exact hi e he

end Sys2Proof.Machine
end

