-- ==== Sys2Proof/Laws/Schedule.lean ====
section
/-! SUPPORT. What offers of schedule entries can do, and which entries a catch-up offers (R105, R141, R144). -/

namespace Sys2Proof.Machine

/-- An edit is refused only by a full list without its target. -/
theorem placeEdit_none {e : Edit} {l : List Edit} (h : placeEdit e l = none) :
    (∀ x ∈ l, x.target ≠ e.target) ∧ 64 ≤ l.length := by
  unfold placeEdit at h
  split at h
  · cases h
  · split at h
    · cases h
    · simp_all [Config.pendingEdits]

/-- A placed edit stands in the place of the one for its target, or at the end of a list with room. -/
theorem placeEdit_some {e : Edit} {l l' : List Edit} (hn : (l.map Edit.target).Nodup) (h : placeEdit e l = some l') :
    (∃ b x a, l = b ++ x :: a ∧ x.target = e.target ∧ (∀ y ∈ b ++ a, y.target ≠ e.target) ∧ l' = b ++ e :: a) ∨
    ((∀ x ∈ l, x.target ≠ e.target) ∧ l.length < 64 ∧ l' = l ++ [e]) := by
  unfold placeEdit at h
  split at h
  next ha =>
    left
    simp at ha
    obtain ⟨x, hx, hxt⟩ := ha
    obtain ⟨b, a, rfl⟩ := List.append_of_mem hx
    have hne : ∀ y ∈ b ++ a, y.target ≠ e.target := by
      intro y hy hye
      simp [List.nodup_append, List.nodup_cons] at hn
      simp at hy
      rcases hy with hy | hy
      · exact (hn.2.2 y hy).1 (hye.trans hxt.symm)
      · exact hn.2.1.1 y hy (hye.trans hxt.symm)
    refine ⟨b, x, a, rfl, hxt, hne, ?_⟩
    cases h
    have hb : b.map (fun y => if y.target = e.target then e else y) = b := by
      conv_rhs => rw [← List.map_id b]
      apply List.map_congr_left; intro y hy; simp [hne y (by simp [hy])]
    have ha : a.map (fun y => if y.target = e.target then e else y) = a := by
      conv_rhs => rw [← List.map_id a]
      apply List.map_congr_left; intro y hy; simp [hne y (by simp [hy])]
    simp [hb, ha, hxt]
  next ha =>
    right
    split at h
    · cases h; simp_all [Config.pendingEdits]
    · cases h

/-- Placing keeps the targets of the list apart. -/
theorem nodup_placed {b a : List Edit} {x e : Edit} (h : ((b ++ x :: a).map Edit.target).Nodup)
    (ht : x.target = e.target) : ((b ++ e :: a).map Edit.target).Nodup := by
  simpa [ht] using h

/-- All that offering schedule entries can do (R105, R141). -/
theorem State.offerEntries_offers (l : List Nat) :
    ∀ s : State, (s.conditions.edits.map Edit.target).Nodup → s.Offers l (s.offerEntries l) := by
  induction l with
  | nil => intro s _; exact .done s
  | cons i rest ih =>
    intro s hn
    show s.Offers (i :: rest) ((s.offerEntry i).offerEntries rest)
    unfold State.offerEntry State.offerPlaced
    by_cases hv : s.site.state = .valid
    · rw [if_pos hv]
      cases hp : placeEdit (s.scheduleEdit i) s.conditions.edits with
      | none =>
        have h := placeEdit_none hp
        simp only [State.markLate]
        split
        next hl => exact .refusedAgain (.inr h) hl (ih s hn)
        next hl =>
          refine .refused (.inr h) hl ?_
          have e : s.schedule.late.length + 1 = (s.schedule.late ++ [i]).length := by simp
          rw [e]; exact ih _ hn
      | some edits =>
        rcases placeEdit_some hn hp with ⟨b, x, a, h1, h2, h3, rfl⟩ | ⟨h1, h2, rfl⟩
        · exact .replaced hv h1 h2 h3 (ih _ (nodup_placed (h1 ▸ hn) h2))
        · refine .appended hv h1 h2 (ih _ ?_)
          show ((s.conditions.edits ++ [_]).map Edit.target).Nodup
          rw [List.map_append, List.nodup_append]
          refine ⟨hn, List.nodup_singleton _, ?_⟩
          simp only [List.mem_map, List.mem_singleton, List.map_cons, List.map_nil]
          rintro _ ⟨e, he, rfl⟩ _ rfl
          exact h1 e he
    · rw [if_neg hv]
      simp only [State.markLate]
      split
      next hl => exact .refusedAgain (.inl hv) hl (ih s hn)
      next hl =>
        refine .refused (.inl hv) hl ?_
        have e : s.schedule.late.length + 1 = (s.schedule.late ++ [i]).length := by simp
        rw [e]; exact ih _ hn

theorem State.lastPerTarget_sublist (s : State) (l : List Nat) : (s.lastPerTarget l).Sublist l := by
  induction l with
  | nil => exact .slnil
  | cons i rest ih =>
    unfold State.lastPerTarget
    split
    · exact ih.cons i
    · exact ih.cons_cons i

/-- Of an ordered list the entries without a later one for their target stay (R144 item 3). -/
theorem State.mem_lastPerTarget (s : State) {R : Nat → Nat → Prop} {l : List Nat} (hp : l.Pairwise R)
    (ha : ∀ i j, R i j → ¬ R j i) (i : Nat) :
    i ∈ s.lastPerTarget l ↔ i ∈ l ∧ ∀ j ∈ l, R i j → (s.scheduleEntry j).target ≠ (s.scheduleEntry i).target := by
  induction l with
  | nil => simp [State.lastPerTarget]
  | cons a rest ih =>
    rw [List.pairwise_cons] at hp
    have ih := ih hp.2
    unfold State.lastPerTarget
    split
    next h =>
      simp only [List.any_eq_true, decide_eq_true_eq] at h
      obtain ⟨k, hk, hkt⟩ := h
      rw [ih]
      constructor
      · rintro ⟨hi, h⟩
        refine ⟨.tail _ hi, fun j hj hr => ?_⟩
        rcases List.mem_cons.1 hj with rfl | hj
        · exact absurd (hp.1 i hi) (ha _ _ hr)
        · exact h j hj hr
      · rintro ⟨hi, h⟩
        rcases List.mem_cons.1 hi with rfl | hi
        · exact absurd hkt (h k (.tail _ hk) (hp.1 k hk))
        · exact ⟨hi, fun j hj => h j (.tail _ hj)⟩
    next h =>
      simp only [List.any_eq_true, decide_eq_true_eq, not_exists, not_and] at h
      rw [List.mem_cons, ih]
      constructor
      · rintro (rfl | ⟨hi, h'⟩)
        · refine ⟨.head _, fun j hj hr => ?_⟩
          rcases List.mem_cons.1 hj with rfl | hj
          · exact absurd hr (ha _ _ hr)
          · exact h j hj
        · refine ⟨.tail _ hi, fun j hj hr => ?_⟩
          rcases List.mem_cons.1 hj with rfl | hj
          · exact absurd (hp.1 i hi) (ha _ _ hr)
          · exact h' j hj hr
      · rintro ⟨hi, h'⟩
        rcases List.mem_cons.1 hi with rfl | hi
        · exact .inl rfl
        · exact .inr ⟨hi, fun j hj => h' j (.tail _ hj)⟩

/-- The order of the entries due today: by minute and then by index (R144 item 1). -/
def State.DueBefore (s : State) (i j : Nat) : Prop :=
  (s.scheduleEntry i).minute < (s.scheduleEntry j).minute ∨
    ((s.scheduleEntry i).minute = (s.scheduleEntry j).minute ∧ i < j)

theorem State.DueBefore.asymm {s : State} {i j : Nat} (h : s.DueBefore i j) : ¬ s.DueBefore j i := by
  unfold State.DueBefore at *; omega

theorem State.mem_insertByMinute (s : State) (i x : Nat) (l : List Nat) :
    x ∈ s.insertByMinute i l ↔ x = i ∨ x ∈ l := by
  induction l with
  | nil => simp [State.insertByMinute]
  | cons j rest ih =>
    unfold State.insertByMinute
    split
    · simp
    · simp only [List.mem_cons, ih]; tauto

/-- An entry above all others by index joins the entries due today in their order. -/
theorem State.insertByMinute_sorted (s : State) (i : Nat) {l : List Nat} (h : l.Pairwise s.DueBefore)
    (hi : ∀ x ∈ l, x < i) : (s.insertByMinute i l).Pairwise s.DueBefore := by
  induction l with
  | nil => simp [State.insertByMinute]
  | cons j rest ih =>
    have hc := List.pairwise_cons.1 h
    unfold State.insertByMinute
    split
    next hlt =>
      refine List.pairwise_cons.2 ⟨fun x hx => .inl ?_, h⟩
      rcases List.mem_cons.1 hx with rfl | hx
      · exact hlt
      · rcases hc.1 x hx with h | h <;> omega
    next hlt =>
      refine List.pairwise_cons.2 ⟨fun x hx => ?_, ih hc.2 fun x hx => hi x (.tail _ hx)⟩
      rcases (s.mem_insertByMinute i x rest).1 hx with rfl | hx
      · have := hi j (.head _)
        unfold State.DueBefore; omega
      · exact hc.1 x hx

/-- Ascending entries inserted one after the other stand in the order of the entries due today. -/
theorem State.insertAll_sorted (s : State) (l : List Nat) : ∀ done : List Nat, l.Pairwise (· < ·) →
    done.Pairwise s.DueBefore → (∀ x ∈ done, ∀ y ∈ l, x < y) →
    let all := l.foldl (fun sorted i => s.insertByMinute i sorted) done
    all.Pairwise s.DueBefore ∧ ∀ x, x ∈ all ↔ x ∈ done ∨ x ∈ l := by
  induction l with
  | nil => intro done _ h _; exact ⟨h, by simp⟩
  | cons i rest ih =>
    intro done hl h hlt
    rw [List.pairwise_cons] at hl
    have := ih (s.insertByMinute i done) hl.2 (s.insertByMinute_sorted i h fun x hx => hlt x hx i (.head _))
      fun x hx y hy => ((s.mem_insertByMinute i x done).1 hx).elim (fun e => e ▸ hl.1 y hy)
        fun hx => hlt x hx y (.tail _ hy)
    refine ⟨this.1, fun x => (this.2 x).trans ?_⟩
    rw [s.mem_insertByMinute, List.mem_cons]; tauto

/-- The entries due so far today, in their order (R144 item 1). -/
theorem State.dueToday_spec (s : State) :
    s.dueToday.Pairwise s.DueBefore ∧ ∀ i, i ∈ s.dueToday ↔ s.DueSoFar i := by
  have h := s.insertAll_sorted _ [] (List.Pairwise.filter (fun i =>
    (s.scheduleEntry i).enabled && (s.scheduleEntry i).minute ≤ s.schedule.minute &&
      (s.scheduleEntry i).onDay s.schedule.day) (List.pairwise_lt_range (n := s.site.header.scheduleCount)))
    .nil (by simp)
  refine ⟨h.1, fun i => (h.2 i).trans ?_⟩
  simp only [List.not_mem_nil, false_or, List.mem_filter, List.mem_range, Bool.and_eq_true, decide_eq_true_eq,
    State.DueSoFar, State.Fires, and_assoc]
  exact ⟨fun ⟨a, b, c, d⟩ => ⟨a, b, d, c⟩, fun ⟨a, b, d, c⟩ => ⟨a, b, c, d⟩⟩

/-- In a list that holds nothing twice no two elements stand both ways round. -/
theorem before_asymm_of_nodup {l : List Nat} (hn : l.Nodup) {i j : Nat} (h1 : [i, j].Sublist l)
    (h2 : [j, i].Sublist l) : False := by
  have hij : i ≠ j := by simpa using hn.sublist h1
  induction l with
  | nil => cases h1
  | cons x rest ih =>
    rw [List.nodup_cons] at hn
    cases h1 with
    | cons _ h1 =>
      cases h2 with
      | cons _ h2 => exact ih hn.2 h1 h2
      | cons_cons _ h2 => exact hn.1 (h1.subset (by simp))
    | cons_cons _ h1 =>
      cases h2 with
      | cons _ h2 => exact hn.1 (h2.subset (by simp))
      | cons_cons _ h2 => exact hij rfl

theorem before_sublist (before between after : List Nat) (i j : Nat) :
    [i, j].Sublist (before ++ i :: (between ++ j :: after)) :=
  ((List.singleton_sublist.2 (by simp)).cons_cons i).trans (List.sublist_append_right before _)

/-- Of two elements of a list one stands before the other. -/
theorem pairwise_before (l : List Nat) :
    l.Pairwise fun i j => ∃ before between after, l = before ++ i :: (between ++ j :: after) := by
  induction l with
  | nil => exact .nil
  | cons x rest ih =>
    refine List.pairwise_cons.2 ⟨fun y hy => ?_, ih.imp ?_⟩
    · obtain ⟨b, c, rfl⟩ := List.append_of_mem hy
      exact ⟨[], b, c, rfl⟩
    · rintro i j ⟨a, b, c, rfl⟩; exact ⟨x :: a, b, c, rfl⟩

/-- No two candidates of a catch-up stand both ways round. -/
theorem State.CandidateBefore.asymm {s : State} (hn : s.schedule.late.Nodup) {i j : Nat}
    (h : s.CandidateBefore i j) : ¬ s.CandidateBefore j i := by
  rintro (⟨hj, g⟩ | ⟨hj, hi, g⟩) <;> rcases h with ⟨hi', h⟩ | ⟨hi', hj', h⟩
  · rcases h with h | ⟨a, b, c, h⟩
    · exact hj h
    · rcases g with g | ⟨a', b', c', g⟩
      · exact hi' g
      · exact before_asymm_of_nodup hn (h ▸ before_sublist a b c i j) (g ▸ before_sublist a' b' c' j i)
  · exact hj hj'
  · exact hi' hi
  · exact State.DueBefore.asymm h g

/-- What a catch-up offers (R144). -/
theorem State.catchUp_survivors (s : State) (hn : s.schedule.late.Nodup) :
    s.Survivors (s.lastPerTarget s.catchUpCandidates) := by
  have hd := s.dueToday_spec
  have hmem : ∀ i, i ∈ s.catchUpCandidates ↔ i ∈ s.schedule.late ∨ s.DueSoFar i := by
    intro i
    simp only [State.catchUpCandidates, List.mem_append, List.mem_filter, decide_eq_true_eq, hd.2]
    by_cases h : s.DueSoFar i <;> simp [h]
  have hp : s.catchUpCandidates.Pairwise s.CandidateBefore := by
    refine List.pairwise_append.2 ⟨?_, hd.1.imp_of_mem fun hi hj h => .inr ⟨(hd.2 _).1 hi, (hd.2 _).1 hj, h⟩, ?_⟩
    · refine ((pairwise_before s.schedule.late).filter fun i => decide (i ∉ s.dueToday)).imp_of_mem fun hi _ h => ?_
      simp only [List.mem_filter, decide_eq_true_eq, hd.2] at hi
      exact .inl ⟨hi.2, .inr h⟩
    · intro i hi j hj
      simp only [List.mem_filter, decide_eq_true_eq, hd.2] at hi
      exact .inl ⟨hi.2, .inl ((hd.2 j).1 hj)⟩
  refine ⟨fun i => ?_, hp.sublist (s.lastPerTarget_sublist _)⟩
  rw [s.mem_lastPerTarget hp fun i j h => State.CandidateBefore.asymm hn h, hmem]
  simp only [hmem]

end Sys2Proof.Machine
end

