-- ==== Sys2Proof/Laws/Turns.lean ====
section
/-! SUPPORT. What schedule offers, a catch-up and a turn can write, and nothing else (R104, R105, R111, R141, R144). -/

namespace Sys2Proof.Machine

/-- Nothing but the pending list, the LATE list and the notices differs. -/
structure State.OffersOnly (s t : State) : Prop where
  eq : ∃ edits late notices mark count, t = { s with
    conditions := { s.conditions with edits := edits }
    schedule := { s.schedule with late := late }
    link := { s.link with notices := notices, overrunMark := mark, dropped := count } }

theorem State.OffersOnly.refl (s : State) : s.OffersOnly s :=
  ⟨s.conditions.edits, s.schedule.late, s.link.notices, s.link.overrunMark, s.link.dropped, rfl⟩

theorem State.OffersOnly.trans {s t u : State} (h : s.OffersOnly t) (g : t.OffersOnly u) : s.OffersOnly u := by
  obtain ⟨_, _, _, _, _, rfl⟩ := h
  obtain ⟨a, b, c, d, e, rfl⟩ := g
  exact ⟨a, b, c, d, e, rfl⟩

theorem State.offer_offersOnly (s : State) (n : Notice) : s.OffersOnly (s.offer n) := by
  obtain ⟨a, b, c, h⟩ := s.link.offer_frame n
  refine ⟨s.conditions.edits, s.schedule.late, a, b, c, ?_⟩
  unfold State.offer; rw [h]

theorem State.setLate_offersOnly (s : State) (late : List Nat) : s.OffersOnly (s.setLate late) :=
  ⟨s.conditions.edits, late, s.link.notices, s.link.overrunMark, s.link.dropped, rfl⟩

theorem State.setEdits_offersOnly (s : State) (edits : List Edit) : s.OffersOnly (s.setEdits edits) :=
  ⟨edits, s.schedule.late, s.link.notices, s.link.overrunMark, s.link.dropped, rfl⟩

theorem State.offerEntry_offersOnly (s : State) (i : Nat) : s.OffersOnly (s.offerEntry i) := by
  unfold State.offerEntry State.markLate
  split
  · exact (s.setEdits_offersOnly _).trans (State.setLate_offersOnly _ _)
  · split
    · exact State.OffersOnly.refl s
    · exact (s.setLate_offersOnly _).trans (State.offer_offersOnly _ _)

theorem State.offerEntries_offersOnly (s : State) (entries : List Nat) : s.OffersOnly (s.offerEntries entries) := by
  unfold State.offerEntries
  induction entries generalizing s with
  | nil => exact State.OffersOnly.refl s
  | cons i rest ih => exact (s.offerEntry_offersOnly i).trans (ih _)

theorem State.catchUp_offersOnly (s : State) : s.OffersOnly s.catchUp :=
  (s.setLate_offersOnly _).trans (State.offerEntries_offersOnly _ _)

/-- A pending entry writes one of the three edited live tables. -/
theorem ConditionUnit.write_frame (u : ConditionUnit) (e : Edit) :
    ∃ closures motions gates, u.write e = { u with closures := closures, motions := motions, gates := gates } := by
  unfold ConditionUnit.write
  split <;> exact ⟨_, _, _, rfl⟩

theorem ConditionUnit.writes_frame (u : ConditionUnit) (edits : List Edit) :
    ∃ closures motions gates,
      edits.foldl ConditionUnit.write u = { u with closures := closures, motions := motions, gates := gates } := by
  induction edits generalizing u with
  | nil => exact ⟨_, _, _, rfl⟩
  | cons e rest ih =>
    obtain ⟨a, b, c, h⟩ := u.write_frame e
    obtain ⟨a', b', c', h'⟩ := ih (u.write e)
    exact ⟨a', b', c', by rw [List.foldl_cons, h', h]⟩

/-- A turn writes the live tables, the pending and LATE lists and the notices; the epoch is one on and the state IDLE. -/
theorem State.applyTurn_frame (s : State) (cause : TurnCause) :
    ∃ closures motions gates edits late notices mark count, s.applyTurn cause = { s with
      conditions := { s.conditions with
        closures := closures, motions := motions, gates := gates, levels := s.publishedNow, edits := edits
        epoch := s.conditions.epoch + 1, turn := .idle }
      schedule := { s.schedule with late := late }
      link := { s.link with notices := notices, overrunMark := mark, dropped := count } } := by
  obtain ⟨a, b, c, h⟩ := s.conditions.writes_frame s.conditions.edits
  let done := Notice.turnDone s.applied.conditions.epoch s.conditions.edits.length s.levelChanges cause
  let told := s.applied.offer done
  obtain ⟨edits, late, notices, mark, count, h2⟩ :=
    State.offerEntries_offersOnly { told with conditions := { told.conditions with turn := .idle } } s.schedule.late
  obtain ⟨x, y, z, h3⟩ := s.link.offer_frame done
  refine ⟨a, b, c, edits, late, notices, mark, count, ?_⟩
  unfold State.applyTurn State.refireLate
  refine Eq.trans h2 ?_
  simp only [told, done, State.applied, h, State.offer] at h3 ⊢
  rw [h3]

end Sys2Proof.Machine
end

