-- ==== Sys2Proof/Laws/Entry.lean ====
section
/-! SUPPORT. What entering VALID does: the state its catch-up starts from, and the sequence of R22 as a whole. -/

namespace Sys2Proof.Machine

/-- The state in which the catch-up of an entry to VALID starts: SITE STATE offered, the live tables at their defaults,
the channels seeded and the LATE list empty (R22, R102, R136, R146). -/
def State.entryBase (s : State) (cause : SiteCause) : State :=
  ((({ s with site := { s.site with generation := s.site.generation + 1 } } : State).moveSiteWithNotice
    .valid cause).liveDefaults.seedChannels).setLate []

/-- That state after the catch-up, which is made with the clock SET (R146). -/
def State.entryCaughtUp (s : State) (cause : SiteCause) : State :=
  if s.schedule.clockSet then (s.entryBase cause).catchUp else s.entryBase cause

theorem State.enterValid_eq (s : State) (cause : SiteCause) :
    s.enterValid cause = ((s.entryCaughtUp cause).applyTurn .site).startTurnTimer := rfl

theorem State.entryBase_closures (s : State) (cause : SiteCause) : (s.entryBase cause).conditions.closures =
    Table.tabulate .opened s.site.header.edgeCount fun i => (s.edge i).defaultClosure := rfl

theorem State.entryBase_motions (s : State) (cause : SiteCause) : (s.entryBase cause).conditions.motions =
    Table.tabulate none s.site.header.edgeCount fun i =>
      if (s.edge i).cls = .escalator || (s.edge i).cls = .travelator then (s.edge i).direction.motion else none := rfl

theorem State.entryBase_gates (s : State) (cause : SiteCause) :
    (s.entryBase cause).conditions.gates = Table.tabulate .opened Config.gates s.gateDefault := by
  unfold State.entryBase State.setLate State.seedChannels State.startSampleTimer State.liveDefaults
  dsimp only; congr 1

theorem State.entryBase_levels (s : State) (cause : SiteCause) : (s.entryBase cause).conditions.levels =
    Table.tabulate .off Config.channels fun c => if (s.channelConfig c).enabled then .clear else .off := by
  unfold State.entryBase State.setLate State.seedChannels State.startSampleTimer State.liveDefaults
  dsimp only; congr 1

theorem State.entryBase_channels (s : State) (cause : SiteCause) : (s.entryBase cause).flow.channels =
    Table.tabulate .cleared Config.channels fun c => seededChannel (s.channelConfig c) := by
  unfold State.entryBase State.setLate State.seedChannels State.startSampleTimer State.liveDefaults
  dsimp only; congr 1

theorem State.entryBase_edits (s : State) (cause : SiteCause) : (s.entryBase cause).conditions.edits = [] := rfl

/-- What differs before the catch-up of an entry to VALID. -/
theorem State.entryBase_frame (s : State) (cause : SiteCause) : s.entryBase cause = { s with
    site := { s.site with state := .valid, generation := s.site.generation + 1 }
    conditions := (s.entryBase cause).conditions
    flow := (s.entryBase cause).flow
    schedule := { s.schedule with late := [] }
    link := s.link.offer (.siteState .valid (s.site.generation + 1) cause) } := rfl

theorem State.entryBase_parameters (s : State) (cause : SiteCause) :
    (s.entryBase cause).link.parameters = s.link.parameters := by
  obtain ⟨_, _, _, h⟩ := s.link.offer_frame (.siteState .valid (s.site.generation + 1) cause)
  rw [s.entryBase_frame cause, h]

/-- R22 step 1. -/
theorem State.entryBase_defaults (s : State) (cause : SiteCause) : (s.entryBase cause).AtDefaults := by
  have hedge : ∀ i, (s.entryBase cause).edge i = s.edge i := fun _ => by rfl
  have hcount : (s.entryBase cause).site.header.edgeCount = s.site.header.edgeCount := rfl
  constructor
  · intro e
    unfold State.closure
    rw [State.entryBase_closures, Table.get_tabulate, hedge, hcount]
    unfold Edge.defaultClosure
    by_cases h : e < s.site.header.edgeCount <;> by_cases g : (s.edge e).closedByDefault = true <;> simp [h, g]
  · intro e
    unfold State.motion
    rw [State.entryBase_motions, Table.get_tabulate, hedge, hcount]
    congr 1
    cases (s.edge e).cls <;> cases (s.edge e).direction <;> rfl
  · intro g
    unfold State.gate
    rw [State.entryBase_gates, Table.get_tabulate]; rfl
  · intro c
    unfold State.published
    have h : (s.entryBase cause).channelConfig c = s.channelConfig c := rfl
    rw [State.entryBase_levels, Table.get_tabulate, h]
    unfold Config.channels
    by_cases h : c < 64 <;> by_cases g : (s.channelConfig c).enabled = true <;> simp [h, g]
  · exact s.entryBase_edits cause

/-- R22 step 2. -/
theorem State.entryBase_seeded (s : State) (cause : SiteCause) : (s.entryBase cause).Seeded := by
  constructor
  · intro c
    unfold State.channel
    have h : (s.entryBase cause).channelConfig c = s.channelConfig c := rfl
    rw [State.entryBase_channels, Table.get_tabulate, h]
    unfold Config.channels
    by_cases h : c < 64 <;> by_cases g : (s.channelConfig c).enabled = true <;>
      simp [h, g, seededChannel, Channel.cleared]
  · rfl
  · rfl

theorem State.entryCaughtUp_offersOnly (s : State) (cause : SiteCause) :
    (s.entryBase cause).OffersOnly (s.entryCaughtUp cause) := by
  unfold State.entryCaughtUp
  split
  · exact State.catchUp_offersOnly _
  · exact State.OffersOnly.refl _

/-- A turn does not read the turn state. -/
theorem State.applyTurn_waiting (s : State) (cause waits : TurnCause) :
    State.applyTurn { s with conditions := { s.conditions with turn := .waiting waits } } cause =
      s.applyTurn cause := by
  have h : ∀ (k : ConditionUnit) (l : List Edit), l.foldl ConditionUnit.write { k with turn := .waiting waits } =
      { l.foldl ConditionUnit.write k with turn := .waiting waits } := by
    intro k l
    induction l generalizing k with
    | nil => rfl
    | cons e rest ih =>
      simp only [List.foldl_cons]
      rw [← ih]
      congr 1
      unfold ConditionUnit.write
      split <;> rfl
  unfold State.applyTurn State.applied
  simp only
  rw [h]
  rfl

/-- The apply step of a turn that waits with no lane SEARCHING (R110). -/
theorem State.applyStep_waiting {s : State} (cause : TurnCause) (h1 : s.Running) (h2 : ¬ s.Searching) :
    exec .applyStep { s with conditions := { s.conditions with turn := .waiting cause } } =
      .next (s.applyTurn cause) := by
  have e : ∀ w : State, exec .applyStep w = .next (w.event State.applyStep) := fun _ => rfl
  rw [e, State.event_of_running (by exact h1)]
  unfold State.applyStep
  simp only
  rw [if_neg, State.applyTurn_waiting]
  rw [Bool.not_eq_true, State.anySearching_eq_false_iff]; exact h2

/-- All that entering VALID does, with no lane SEARCHING (R22). -/
theorem State.enterValid_entersValid {s : State} (cause : SiteCause) (hr : s.Running) (h : ¬ s.Searching) :
    s.EntersValid (s.enterValid cause) cause := by
  obtain ⟨_, _, _, _, _, hu⟩ := s.entryCaughtUp_offersOnly cause
  have hlanes : (s.entryCaughtUp cause).lanes = s.lanes := by rw [hu]; rfl
  have hpins : (s.entryCaughtUp cause).pins = s.pins := by rw [hu]; rfl
  have hp : (s.entryCaughtUp cause).link.parameters = s.link.parameters := by rw [hu]; exact s.entryBase_parameters cause
  have hs : (s.entryCaughtUp cause).site = (s.entryBase cause).site := by rw [hu]
  obtain ⟨_, _, _, _, _, _, _, _, ht⟩ := (s.entryCaughtUp cause).applyTurn_frame .site
  have hsite : (s.enterValid cause).site =
      { s.site with state := .valid, generation := s.site.generation + 1 } := by
    rw [s.enterValid_eq cause, ht]; exact hs
  refine ⟨hsite, s.entryBase cause, s.entryCaughtUp cause, (s.entryCaughtUp cause).applyTurn .site, ?_, rfl,
    s.entryBase_defaults cause, s.entryBase_seeded cause, ?_, ?_, ?_, ?_⟩
  · rw [hsite]; exact s.entryBase_frame cause
  · intro hc; simp [State.entryCaughtUp, hc]
  · intro hc
    have e : s.entryCaughtUp cause = (s.entryBase cause).catchUp := by simp [State.entryCaughtUp, hc]
    rw [e]
    exact ⟨_, State.catchUp_survivors _ List.nodup_nil, State.offerEntries_offers _ _ List.nodup_nil⟩
  · refine State.applyStep_waiting .site ?_ ?_
    · unfold State.Running at *; rw [hpins]; exact hr
    · unfold State.Searching State.lane at *; rw [hlanes]; exact h
  · rw [s.enterValid_eq cause, ht, ← hp]; rfl

end Sys2Proof.Machine
end

