-- ==== Sys2Proof/Laws/PerInstr.lean ====
section
/-! SUPPORT. What holds of every command as syntax: a request row is a frame of a request kind of R179, and it is
well-formed exactly when its payload fits a frame. One lemma for each row. -/

namespace Sys2Proof.Laws

/-- A request row is a whole frame of one of the kinds 01h to 16h, and it is well-formed exactly when its payload has at
most 1024 bytes (R168, R179). -/
def Layout.Statement (i : Instr) : Prop :=
  ∀ kind payload, i.requestOf = some (kind, payload) →
    i.wholeFrame ∧ isRequestKind (BitVec.ofNat 8 kind.code) = true ∧ (i.wellFormed = true ↔ payload.length ≤ 1024)

/-- A request row, once its kind and its well-formedness are read off. -/
theorem Layout.of_request {i : Instr} {kind : Machine.RequestKind} {payload : List Byte}
    (h : i.requestOf = some (kind, payload)) (w : i.wellFormed = payloadFits payload)
    (k : isRequestKind (BitVec.ofNat 8 kind.code) = true) : Layout.Statement i := by
  intro kind' payload' h'
  rw [h] at h'
  injection h' with h'
  injection h' with hk hp
  subst hk
  subst hp
  exact ⟨.inl (by rw [h]; rfl), k, by rw [w]; simp [payloadFits, Config.payloadBytes]⟩

/-- A row that is no request. -/
theorem Layout.of_event {i : Instr} (h : i.requestOf = none) : Layout.Statement i := by
  intro kind payload h'
  rw [h] at h'
  cases h'

theorem Layout.powerOnReset (rate : BitVec 2) (bootld alarm : Bool) :
    Layout.Statement (.powerOnReset rate bootld alarm) := Layout.of_event rfl

theorem Layout.ackStart (payload : List Byte) :
    Layout.Statement (.ackStart payload) := Layout.of_request rfl rfl rfl

theorem Layout.status (payload : List Byte) :
    Layout.Statement (.status payload) := Layout.of_request rfl rfl rfl

theorem Layout.softReset (payload : List Byte) :
    Layout.Statement (.softReset payload) := Layout.of_request rfl rfl rfl

theorem Layout.softResetEffect :
    Layout.Statement .softResetEffect := Layout.of_event rfl

theorem Layout.setParam (payload : List Byte) :
    Layout.Statement (.setParam payload) := Layout.of_request rfl rfl rfl

theorem Layout.getParam (payload : List Byte) :
    Layout.Statement (.getParam payload) := Layout.of_request rfl rfl rfl

theorem Layout.siteOpen (payload : List Byte) :
    Layout.Statement (.siteOpen payload) := Layout.of_request rfl rfl rfl

theorem Layout.siteClose (payload : List Byte) :
    Layout.Statement (.siteClose payload) := Layout.of_request rfl rfl rfl

theorem Layout.tableWrite (payload : List Byte) :
    Layout.Statement (.tableWrite payload) := Layout.of_request rfl rfl rfl

theorem Layout.tableRead (payload : List Byte) :
    Layout.Statement (.tableRead payload) := Layout.of_request rfl rfl rfl

theorem Layout.siteLoad (payload : List Byte) :
    Layout.Statement (.siteLoad payload) := Layout.of_request rfl rfl rfl

theorem Layout.siteDump (payload : List Byte) :
    Layout.Statement (.siteDump payload) := Layout.of_request rfl rfl rfl

theorem Layout.condition (payload : List Byte) :
    Layout.Statement (.condition payload) := Layout.of_request rfl rfl rfl

theorem Layout.conditionRead (payload : List Byte) :
    Layout.Statement (.conditionRead payload) := Layout.of_request rfl rfl rfl

theorem Layout.turnNow (payload : List Byte) :
    Layout.Statement (.turnNow payload) := Layout.of_request rfl rfl rfl

theorem Layout.setClock (payload : List Byte) :
    Layout.Statement (.setClock payload) := Layout.of_request rfl rfl rfl

theorem Layout.route (payload : List Byte) :
    Layout.Statement (.route payload) := Layout.of_request rfl rfl rfl

theorem Layout.cancel (payload : List Byte) :
    Layout.Statement (.cancel payload) := Layout.of_request rfl rfl rfl

theorem Layout.collect (payload : List Byte) :
    Layout.Statement (.collect payload) := Layout.of_request rfl rfl rfl

theorem Layout.screenState (payload : List Byte) :
    Layout.Statement (.screenState payload) := Layout.of_request rfl rfl rfl

theorem Layout.flowRead (payload : List Byte) :
    Layout.Statement (.flowRead payload) := Layout.of_request rfl rfl rfl

theorem Layout.egressEnter (payload : List Byte) :
    Layout.Statement (.egressEnter payload) := Layout.of_request rfl rfl rfl

theorem Layout.egressResume (payload : List Byte) :
    Layout.Statement (.egressResume payload) := Layout.of_request rfl rfl rfl

theorem Layout.alarmPinChange :
    Layout.Statement .alarmPinChange := Layout.of_event rfl

theorem Layout.alarmAsserted :
    Layout.Statement .alarmAsserted := Layout.of_event rfl

theorem Layout.alarmClear :
    Layout.Statement .alarmClear := Layout.of_event rfl

theorem Layout.badCheck (bytes : List Byte) :
    Layout.Statement (.badCheck bytes) := Layout.of_event rfl

theorem Layout.unknownKind (kind : Byte) :
    Layout.Statement (.unknownKind kind) := Layout.of_event rfl

theorem Layout.badLength (length : BitVec 16) :
    Layout.Statement (.badLength length) := Layout.of_event rfl

theorem Layout.frameTimeout (late : Option Byte) :
    Layout.Statement (.frameTimeout late) := Layout.of_event rfl

theorem Layout.linkBusy :
    Layout.Statement .linkBusy := Layout.of_event rfl

theorem Layout.frameBoundary :
    Layout.Statement .frameBoundary := Layout.of_event rfl

theorem Layout.startRepeatTimerExpiry :
    Layout.Statement .startRepeatTimerExpiry := Layout.of_event rfl

theorem Layout.grant :
    Layout.Statement .grant := Layout.of_event rfl

theorem Layout.recordComplete (lane : Fin 4) :
    Layout.Statement (.recordComplete lane) := Layout.of_event rfl

theorem Layout.slotGrant :
    Layout.Statement .slotGrant := Layout.of_event rfl

theorem Layout.holdTimerExpiry (slot : Fin 48) :
    Layout.Statement (.holdTimerExpiry slot) := Layout.of_event rfl

theorem Layout.drainEnd :
    Layout.Statement .drainEnd := Layout.of_event rfl

theorem Layout.turnTimerExpiry :
    Layout.Statement .turnTimerExpiry := Layout.of_event rfl

theorem Layout.applyStep :
    Layout.Statement .applyStep := Layout.of_event rfl

theorem Layout.tick :
    Layout.Statement .tick := Layout.of_event rfl

theorem Layout.minuteBoundary :
    Layout.Statement .minuteBoundary := Layout.of_event rfl

theorem Layout.sampleTimerExpiry :
    Layout.Statement .sampleTimerExpiry := Layout.of_event rfl

theorem Layout.pollSent :
    Layout.Statement .pollSent := Layout.of_event rfl

theorem Layout.counterReply (b0 b1 b2 b3 b4 : Byte) :
    Layout.Statement (.counterReply b0 b1 b2 b3 b4) := Layout.of_event rfl

theorem Layout.replyTimeout :
    Layout.Statement .replyTimeout := Layout.of_event rfl

theorem Layout.busyClear :
    Layout.Statement .busyClear := Layout.of_event rfl

theorem Layout.flashTimeout :
    Layout.Statement .flashTimeout := Layout.of_event rfl

theorem Layout.headerRead (bytes : List Byte) :
    Layout.Statement (.headerRead bytes) := Layout.of_event rfl

theorem Layout.recordRead (bytes : List Byte) :
    Layout.Statement (.recordRead bytes) := Layout.of_event rfl

theorem Layout.resetAsserted (rate : BitVec 2) (bootld : Bool) :
    Layout.Statement (.resetAsserted rate bootld) := Layout.of_event rfl

theorem Layout.sync (bytes : List Byte) :
    Layout.Statement (.sync bytes) := Layout.of_event rfl

end Sys2Proof.Laws
end

