-- ==== Sys2Proof/Laws/Slots.lean ====
section
/-! SUPPORT. What storing a record, asking for a slot and freeing one can do (R60, R77, R79). -/

namespace Sys2Proof.Machine

/-- The tables that the Result Store's operations write are canonical. -/
structure State.StoreCanonical (s : State) : Prop where
  slots : Table.wf none s.store.slots = true
  screens : Table.wf .idle s.dispatcher.screens = true
  lanes : Table.wf .cleared s.lanes = true

theorem State.Canonical.store {s : State} (h : s.Canonical) : s.StoreCanonical := ⟨h.slots, h.screens, h.lanes⟩

theorem State.storeRecord_stored {s : State} (h : s.StoreCanonical) (n l : Nat) (r : RouteRecord) :
    s.Stored (s.storeRecord n l r) n l r where
  slot := Table.get_set_self _ h.slots _ _
  slots m hm := Table.get_set_of_ne _ _ _ hm
  ready := Table.get_set_self _ h.screens _ _
  lane := by
    have : (s.storeRecord n l r).lane l = { Lane.cleared with labels := (s.lane l).labels, heap := (s.lane l).heap } :=
      Table.get_set_self _ h.lanes _ _
    rw [this]; exact ⟨rfl, rfl, rfl, rfl, rfl, rfl, rfl, rfl, rfl⟩
  lanes m hm := Table.get_set_of_ne _ _ _ hm

theorem State.storeRecord_screens (s : State) (n l : Nat) (r : RouteRecord) {i : Nat} (h : i ≠ r.screen) :
    (s.storeRecord n l r).screen i = s.screen i := Table.get_set_of_ne _ _ _ h

theorem State.storeRecord_link (s : State) (n l : Nat) (r : RouteRecord) :
    (s.storeRecord n l r).link = s.link.offer (.resultReady r.screen n r.tag r.status) := rfl

theorem State.storeRecord_holders (s : State) (n l : Nat) (r : RouteRecord) :
    (s.storeRecord n l r).store.holders = s.store.holders := rfl

/-- The FREE slot of lowest number. -/
theorem State.lowestFreeSlot_eq {s : State} {n : Nat} (hn : n < 48) (hf : s.slot n = none)
    (hl : ∀ m, m < n → s.slot m ≠ none) : s.lowestFreeSlot = some n := by
  unfold State.lowestFreeSlot
  rw [List.find?_range_eq_some]
  exact ⟨by simpa using hf, by simpa [Config.slots] using hn, fun j hj => by simpa using hl j hj⟩

theorem State.lowestFreeSlot_eq_none {s : State} (h : ∀ n, n < 48 → s.slot n ≠ none) : s.lowestFreeSlot = none := by
  unfold State.lowestFreeSlot
  rw [List.find?_eq_none]
  intro n hn
  simpa using h n (by simpa [Config.slots] using hn)

/-- A FREE slot goes to the head of the holders list. -/
theorem State.grantSlot_eq {s : State} {n l : Nat} {rest : List Nat} {r : RouteRecord} (hh : s.store.holders = l :: rest)
    (hr : (s.lane l).record = some r) : s.grantSlot n = (s.setHolders rest).storeRecord n l r := by
  unfold State.grantSlot; simp only [hh, hr]

theorem State.grantSlot_alone {s : State} (n : Nat) (hh : s.store.holders = []) : s.grantSlot n = s := by
  unfold State.grantSlot; simp only [hh]

end Sys2Proof.Machine
end

