-- ==== Sys2Proof/Tests/Slice0.lean ====
section
/-! SUPPORT. Tests: what WellFormed refuses, single steps whose expected results are the spec's worked examples and tables,
and for every statement of Certificates/Slice0/Obligations.lean that has hypotheses a state and operands that meet them. -/

namespace Sys2Proof.Tests

open Sys2Proof.Machine

/-! ### WellFormed refuses -/

/-- A payload of 1025 bytes fits no frame (R168), whatever the request. -/
theorem test_long_payloads_are_ill_formed :
    (let p : List Byte := List.replicate 1025 0
     [Instr.ackStart p, .status p, .softReset p, .setParam p, .getParam p, .siteOpen p, .siteClose p, .tableWrite p,
      .tableRead p, .siteLoad p, .siteDump p, .condition p, .conditionRead p, .turnNow p, .setClock p, .route p, .cancel p,
      .collect p, .screenState p, .flowRead p, .egressEnter p, .egressResume p].all fun c => !c.wellFormed) = true := by
  decide +kernel

/-- A frame whose bytes sum to 0 has no bad check, and a frame's length states its bytes. -/
theorem test_bad_check_ill_formed :
    (Instr.badCheck [0, 0, 2, 0xFE]).wellFormed = false ∧ (Instr.badCheck [1, 0, 2, 0]).wellFormed = false := by decide

theorem test_known_kind_is_not_unknown : (Instr.unknownKind 1).wellFormed = false := by decide

theorem test_length_that_fits_is_not_bad : (Instr.badLength 1024).wellFormed = false := by decide

/-- SYNC and its two length bytes, the kind and 1024 payload bytes are all that a frame has before its check. -/
theorem test_sync_with_too_many_bytes_ill_formed : (Instr.sync (List.replicate 1028 0)).wellFormed = false := by
  decide +kernel

theorem test_short_header_ill_formed : (Instr.headerRead [0x48, 0x50]).wellFormed = false := by decide

theorem test_record_of_no_size_ill_formed : (Instr.recordRead [0, 0, 0, 0, 0]).wellFormed = false := by decide

/-- The table gives its rows no bits, so no word spells a command. -/
theorem test_no_word_spells_a_command : decodeTableWord 16 0x1234 = none := by decide

/-! ### Worked examples: travel costs (chapter 2.9) -/

def walk (length : Nat) : Edge := { Edge.cleared with length := length }
def escalator (code : Nat) : Edge :=
  { Edge.cleared with cls := .escalator, length := 110, direction := .runAB, rideCode := code }
def lift (code : Nat) : Edge := { Edge.cleared with cls := .elevator, heading := none, rideCode := code }
def travelator : Edge := { Edge.cleared with cls := .travelator, length := 600, direction := .runAB }
def quiet (motion : Option Motion) (level : Option Level) : EdgeConditions :=
  { closure := .opened, motion := motion, gateClosed := false, level := level }
def factors : Header := { Header.cleared with fBusy := 24, fCrowded := 40, fUnknown := 20 }
def profile0 : Profile :=
  { pace := 130, stairs := true, escalator := true, travelator := false, elevator := false, stairFactor := 24
    liftWait := 300, aversion := 2 }
def profile1 : Profile :=
  { pace := 90, stairs := false, escalator := false, travelator := true, elevator := true, stairFactor := 16
    liftWait := 450, aversion := 1 }
def profile7 : Profile :=
  { pace := 110, stairs := true, escalator := false, travelator := false, elevator := false, stairFactor := 20
    liftWait := 0, aversion := 0 }

/-- 2.9.1: E1 on a BUSY channel 486, E3 running 300, stopped 127, against UNUSABLE. -/
theorem test_normal_costs :
    price .normal profile0 factors (walk 420) (quiet none (some .busy)) true = some 486 ∧
    price .normal profile0 factors (escalator 6) (quiet (some .runAB) none) true = some 300 ∧
    price .normal profile0 factors (escalator 6) (quiet (some .stopped) none) true = some 127 ∧
    price .normal profile0 factors (escalator 6) (quiet (some .runAB) none) false = none := by decide

/-- 2.9.2: in EGRESS the crowd is ignored by this profile and the escalator is stairs in both directions. -/
theorem test_egress_costs :
    price .egress profile7 factors (walk 420) (quiet none (some .busy)) true = some 382 ∧
    price .egress profile7 factors (escalator 6) (quiet (some .runAB) none) true = some 125 ∧
    price .egress profile7 factors (escalator 6) (quiet (some .runAB) none) false = some 125 := by decide

/-- 2.9.3: the step-free walker. -/
theorem test_step_free_costs :
    price .normal profile1 factors (lift 4) (quiet none none) true = some 650 ∧
    price .normal profile1 factors (lift 0) (quiet none none) true = none ∧
    price .normal profile1 factors (escalator 6) (quiet (some .runAB) none) true = none ∧
    price .normal profile1 factors travelator (quiet (some .runAB) (some .crowded)) true = some 751 ∧
    price .normal profile1 factors travelator (quiet (some .stopped) none) true = some 667 ∧
    price .normal profile1 factors { walk 12 with cls := .door } (quiet none none) true = some 34 ∧
    price .normal profile1 factors (walk 0) (quiet none none) true = some 1 ∧
    price .normal profile1 factors (walk 300) (quiet none (some .unknown)) true = some 376 := by decide

/-- 2.9.5: the rounding of totals. -/
theorem test_totals :
    [4, 5, 294, 295, 894, 895, 33536001].map (fun ds => (secondsOf ds, minutesOf (secondsOf ds))) =
      [(0, 0), (1, 1), (29, 1), (30, 1), (89, 1), (90, 2), (3353600, 55893)] := by decide

/-! ### Worked examples: one channel through a busy spell (chapter 7.9) -/

def channel14 : ChannelConfig :=
  { enabled := true, role := .independent, reference := 0, weight := 0, busy := 10, crowded := 25, hysteresis := 3
    ceiling := 60, debounce := 2, filterShift := 1, averageShift := 6, activationShift := 2, settleBand := 4
    plateauSamples := 3, staleLimit := 3 }

/-- A TRACKING channel with these values and the last count s. -/
def tracking (level : Level) (f l act : Int) (debounce plateau s : Nat) (change : Int) : Channel :=
  { state := .tracking, level := level, filter := f, average := l, activation := act, debounce := debounce
    plateau := plateau, missed := 0, change := change, lastCount := some s }

def sampled (ch : Channel) (sample : Option Nat) : Channel := (processSample channel14 ch sample 0).channel

/-- Cycles 1, 2, 5 and 6: L learns while CLEAR, debounce, and a drop of one step. -/
theorem test_busy_spell :
    sampled (tracking .clear 320 320 320 0 0 20 0) (some 40) = tracking .clear 480 322 400 1 0 40 2 ∧
    sampled (tracking .clear 480 322 400 1 0 40 2) (some 40) = tracking .busy 560 322 460 0 0 40 0 ∧
    sampled (tracking .busy 820 322 648 1 0 60 0) (some 60) = tracking .crowded 890 322 726 0 0 60 0 ∧
    sampled (tracking .crowded 890 322 726 0 0 60 0) (some 20) = tracking .busy 605 322 624 0 1 20 0 := by decide

/-- Cycle 8 reseeds, with its two notices in order. -/
theorem test_reseed :
    let before := tracking .busy 622 322 628 0 2 40 0
    let after := processSample channel14 before (some 40) 0
    after = { channel := tracking .clear 631 631 631 0 0 40 0, reseeded := true } ∧
      flowNotices 14 before after = [.flowReseed 14 631 .clear, .flowLevel 14 .busy .clear] := by decide

/-- Cycle 12 makes the channel STALE, cycle 13 holds it, and cycle 14 restarts it with its baseline. -/
theorem test_stale :
    let tired : Channel := { tracking .clear 635 631 633 0 0 40 0 with missed := 2 }
    let stale : Channel := { tired with missed := 3, level := .unknown, state := .stale }
    sampled tired none = stale ∧ sampled stale none = stale ∧
      sampled stale (some 30) = tracking .clear 480 631 480 0 0 30 0 ∧
      flowNotices 14 tired (processSample channel14 tired none 0) = [.flowStale 14 .clear 3] := by decide

/-! ### Worked examples: legs (chapters 4.9 and 4.11) -/

def leg (turn : Option Nat) (heading : Nat) (distance time node : Nat) (landmark : Option Nat) : Leg :=
  { kind := .walk, stopped := false, turn := turn, heading := some heading, distance := distance, time := time
    endNode := node, endFloor := 1, landmark := landmark }

/-- The five nodes and four edges of chapter 4.9. -/
def fountain : State :=
  let node (landmark : Option Nat) : Node := { Node.cleared with floor := 1, landmark := landmark }
  let edge (a b heading length : Nat) : Edge :=
    { Edge.cleared with a := a, b := b, heading := some heading, length := length }
  { State.reset with site := { SiteStore.cleared with
    nodes := [(10, node none), (11, node none), (12, node (some 305)), (13, node none), (14, node (some 88))]
    edges := [(20, edge 10 11 2 156), (22, edge 11 12 2 78), (24, edge 13 12 6 195), (25, edge 13 14 0 117)] } }

def hop (e : Nat) (ab : Bool) (a b cost length : Nat) : Traversal :=
  { edge := e, ab := ab, fromNode := a, toNode := b, resolved := .walk, cost := cost, length := length }

/-- 4.9: four walking traversals become three legs. -/
theorem test_legs_of_a_walking_route :
    fountain.condense 2
        [hop 20 true 10 11 120 156, hop 22 true 11 12 60 78, hop 24 false 12 13 150 195, hop 25 true 13 14 90 117] =
      [leg (some 0) 2 234 180 12 (some 305), leg (some 0) 2 195 150 13 none, leg (some 6) 0 117 90 14 (some 88)] := by
  decide

/-- 4.11: of 43 legs the last four become one ONWARD leg. -/
theorem test_onward_leg :
    let tail := [leg (some 2) 4 150 116 1 none, leg (some 0) 4 110 300 2 none, leg (some 7) 3 80 62 3 none,
      leg (some 0) 3 5 24 9 none]
    let r := State.reset.checkLegs 9 (List.replicate 39 (leg (some 1) 0 10 5 0 none) ++ tail)
    r.2 = true ∧ r.1.length = 40 ∧ (r.1[39]?).map (fun l => (l.kind, l.turn, l.heading, l.distance, l.time)) =
      some (.onward, some 2, some 4, 345, 502) := by decide

/-! ### A small site and small states -/

/-- Three nodes, node 2 a floor up; a walk from 0 to 1, an escalator from 1 to 2; two exits in group 0 and a group of one
gated member; destinations 0 (node 2), 1 (group 1), 2 (node 0, with own gate 7) and 3 (UNUSED). -/
def shop : SiteStore :=
  { SiteStore.cleared with
    header := { Header.cleared with
      nodeCount := 3, edgeCount := 2, adjacencyCount := 4, groupCount := 2, memberCount := 3, directoryCount := 4
      scheduleCount := 3 }
    nodes := [(0, { Node.cleared with adjacencyCount := 1 }),
      (1, { Node.cleared with adjacencyStart := 1, adjacencyCount := 2 }),
      (2, { floor := 1, landmark := some 9, adjacencyStart := 3, adjacencyCount := 1 })]
    edges := [(0, { Edge.cleared with b := 1, length := 130, heading := some 2, channel := some 0 }),
      (1, { Edge.cleared with
        a := 1, b := 2, cls := .escalator, length := 110, heading := some 2, direction := .runAB, rideCode := 6 })]
    adjacency := [(2, 1), (3, 1)]
    groups := [(0, { Group.cleared with memberCount := 2 }),
      (1, { selection := .firstOpen, memberStart := 2, memberCount := 1 })]
    members := [(1, { node := 2, gate := none }), (2, { node := 2, gate := some 6 })]
    directory := [(0, { kind := .direct, ref := 2, category := 1, ownGate := none }),
      (1, { kind := .group, ref := 1, category := 2, ownGate := none }),
      (2, { kind := .direct, ref := 0, category := 3, ownGate := some 7 })]
    profiles := [(0, profile0), (7, profile7)]
    screens := [(2, { enabled := true, node := 0, facing := 2, profile := 0, priority := 0 }),
      (3, { enabled := true, node := 0, facing := 2, profile := 0, priority := 2 }),
      (7, { enabled := true, node := 0, facing := 2, profile := 0, priority := 1 }),
      (15, { enabled := true, node := 0, facing := 2, profile := 0, priority := 2 }),
      (22, { enabled := true, node := 0, facing := 2, profile := 0, priority := 0 })]
    channels := [(0, { channel14 with role := .reference }), (1, { channel14 with role := .follower, weight := 2048 })]
    schedule := [(0, { enabled := true, minute := 480, days := 127, target := { kind := .gate, index := 6 }
                       value := .closure .closed }),
      (1, { enabled := true, minute := 600, days := 127, target := { kind := .motion, index := 1 }
            value := .motion .runBA }),
      (2, { enabled := true, minute := 630, days := 127, target := { kind := .motion, index := 1 }
            value := .motion .stopped })] }

/-- After ACK START, the site EMPTY. -/
def ready : State :=
  { State.reset with link := { State.reset.link with notices := [], startPending := false } }

/-- The site EDITING with the shop's tables. -/
def editing : State := { ready with site := { shop with state := .editing } }

/-- The site VALID, its live tables at the defaults. -/
def live : State :=
  { ready with
    site := { shop with state := .valid, generation := 1 }
    conditions := { closures := [], motions := [(1, some .runAB)], gates := [], levels := [(0, .clear), (1, .clear)]
                    edits := [], epoch := 1, turn := .idle, timer := some 2 }
    flow := { channels := [(0, tracking .clear 320 320 320 0 0 20 0), (1, { Channel.cleared with state := .seeding, level := .clear })]
              timer := some 10, cycle := none } }

def request (screen tag : Nat) : Request :=
  { screen := screen, destination := 0, choice := none, tag := tag, assist := false, passes := 0 }

def entry (screen tag : Nat) : QueueEntry := { request := request screen tag, egressMark := false }

/-- Screen 2 waits. -/
def queued : State :=
  { live with dispatcher := { screens := [(2, .queued)], queue := [entry 2 1] } }

/-- The context that a search for the request of screen 2 takes. -/
def context : SearchContext := live.contextOf (request 2 1)

def searchingLane : Lane :=
  { Lane.cleared with state := .searching, request := some (request 2 1), context := some context
                      targets := [(2, none)], clockUnset := true }

/-- Lane SL0 searches for screen 2. -/
def searching : State :=
  { live with dispatcher := { screens := [(2, .active 0)], queue := [] }, lanes := [(0, searchingLane)] }

/-- Screen 2's record, UNREACHABLE. -/
def record : RouteRecord := recordWithoutRoute searchingLane (request 2 1) context .unreachable

/-- Screen 2 is READY with slot 0. -/
def stored : State :=
  { live with
    dispatcher := { screens := [(2, .ready 0)], queue := [] }
    store := { slots := [(0, some { record := record, screen := 2, hold := 30 })], holders := [] } }

def waitingNotice (i : Nat) : Notice := .flowLevel i .clear .busy

/-- 47 notices wait, the last of them for channel 14 (chapter 11.7). -/
def backlog : HostLink :=
  { ready.link with notices := ((List.range 46).map fun i => waitingNotice (i + 15)) ++ [waitingNotice 14] }

theorem ready_started : ready.Started := ⟨⟨rfl, rfl, by decide⟩, rfl⟩
theorem editing_started : editing.Started := ⟨⟨rfl, rfl, by decide⟩, rfl⟩
theorem live_started : live.Started := ⟨⟨rfl, rfl, by decide⟩, rfl⟩
theorem queued_started : queued.Started := ⟨⟨rfl, rfl, by decide⟩, rfl⟩
theorem searching_started : searching.Started := ⟨⟨rfl, rfl, by decide⟩, rfl⟩
theorem stored_started : stored.Started := ⟨⟨rfl, rfl, by decide⟩, rfl⟩

/-- The label tables of listed lanes decide those of all lanes. -/
theorem labels_wf {s : State} (h : ∀ x ∈ s.lanes, Table.wf .unseen x.2.labels = true) (l : Nat) :
    Table.wf .unseen (s.lane l).labels = true := by
  unfold State.lane
  revert h
  induction s.lanes with
  | nil => intro _; rfl
  | cons x rest ih =>
    intro h
    rw [Table.get_cons]
    split
    · exact h x List.mem_cons_self
    · exact ih fun y hy => h y (List.mem_cons_of_mem _ hy)

theorem shop_canonical : shop.Canonical :=
  ⟨by decide, by decide, by decide, by decide, by decide, by decide, by decide, by decide, by decide, by decide, by decide⟩

theorem canonical_of {s : State} (site : s.site.Canonical)
    (rest : (Table.wf .opened s.conditions.closures && Table.wf none s.conditions.motions &&
      Table.wf .opened s.conditions.gates && Table.wf .off s.conditions.levels && Table.wf .cleared s.flow.channels &&
      Table.wf .idle s.dispatcher.screens && Table.wf .cleared s.lanes && Table.wf none s.store.slots) = true)
    (labels : ∀ x ∈ s.lanes, Table.wf .unseen x.2.labels = true) : s.Canonical := by
  simp only [Bool.and_eq_true] at rest
  obtain ⟨⟨⟨⟨⟨⟨⟨h1, h2⟩, h3⟩, h4⟩, h5⟩, h6⟩, h7⟩, h8⟩ := rest
  exact ⟨site, h1, h2, h3, h4, h5, h6, h7, labels_wf labels, h8⟩

theorem editing_canonical : editing.Canonical :=
  canonical_of { shop_canonical with } (by decide) (by decide)
theorem live_canonical : live.Canonical := canonical_of { shop_canonical with } (by decide) (by decide)
theorem queued_canonical : queued.Canonical := canonical_of { shop_canonical with } (by decide) (by decide)
theorem searching_canonical : searching.Canonical := canonical_of { shop_canonical with } (by decide) (by decide)
theorem stored_canonical : stored.Canonical := canonical_of { shop_canonical with } (by decide) (by decide)

/-- The shop passes validation (R20). -/
theorem test_shop_is_valid : shop.firstFailure = none := by decide +kernel

/-! ### Single steps -/

/-- The state after a command; every command ends in one. -/
def after (c : Instr) (s : State) : State :=
  match exec c s with
  | .next t => t
  | .fault _ => s
  | .refused _ => s

/-- R169, R179: the replies that wait, as kind and payload. -/
def replies (s : State) : List (Byte × List Byte) :=
  s.link.replies.filterMap fun
    | .reply f => some (f.kind, f.payload)
    | .busyRun _ => none

/-- R23, R167: with BOOTLD high a load from flash address 0 runs, and the site is LOADING. -/
theorem test_boot_load :
    let t := after (.powerOnReset 2 true true) live
    t.site.state = .loading ∧ t.transfer.state = .readyWait ∧ t.transfer.address = some 0 ∧ t.egress.mode = .egress ∧
      t.link.notices = [.start .powerOn] := by decide

/-- R173, R179: STATUS right after power-on reset. -/
theorem test_status_after_reset :
    replies (after (.status []) State.reset) = [(0x82,
      [0, 1, 0, 0, 0, 0, 0, 0xFF, 0xFF, 0xFF, 0xFF, 0xFF, 0xFF, 0, 0xFF, 1, 0, 0, 0, 0, 1, 0, 0, 0, 0, 0, 0,
       0, 0xFF, 0, 0xFF, 0, 0xFF, 0, 0xFF, 0, 0xFF, 0xFF, 0xFF, 0xFF, 0, 64, 0, 0, 0, 1, 0])] := by decide +kernel

/-- R179: the check byte makes the bytes from the length on sum to 0. -/
theorem test_frame_bytes :
    Frame.bytes { kind := 0x81, payload := [0] } = [0xA5, 1, 0, 0x81, 0, 0x7E] := by decide

/-- R174: a turn period of 100 s is clamped to 60, and BAD_VALUE (21) answers an ALERT source of no code. -/
theorem test_set_param :
    replies (after (.setParam [1, 100, 0]) ready) = [(0x84, [0, 1, 60, 0])] ∧
    replies (after (.setParam [5, 7, 0]) ready) = [(0x84, [21])] := by decide

/-- 11.7: with the queue at 47 an update in place, an append, and a drop. -/
theorem test_backlog :
    let one := backlog.offer (.flowLevel 14 .busy .crowded)
    let two := one.offer (waitingNotice 20)
    let three := (backlog.offer (waitingNotice 100)).offer (.resultReady 9 0 5 .found)
    one.notices.length = 47 ∧ one.notices.getLast? = some (.flowLevel 14 .busy .crowded) ∧
      two.notices.length = 47 ∧ three.notices.length = 48 ∧ three.overrunMark = true ∧ three.dropped = 1 ∧
      (after .frameBoundary { ready with link := three }).link.notices.getLast? = some (.overrun 1) := by decide +kernel

/-- R19, R22, R112: a close of tables that pass: generation 1, epoch 1, TURN DONE with cause SITE. -/
theorem test_site_close :
    let t := after (.siteClose []) editing
    t.site.state = .valid ∧ t.site.generation = 1 ∧ t.conditions.epoch = 1 ∧ t.conditions.timer = some 2 ∧
      t.motion 1 = some .runAB ∧ (t.channel 0).state = .seeding ∧
      t.link.notices = [.siteState .valid 1 .close, .turnDone 1 0 0 .site] := by decide +kernel

/-- R20: an adjacency entry that names no edge fails check A1 at its index. -/
theorem test_first_failure :
    SiteStore.firstFailure { shop with adjacency := [(1, 7), (2, 1), (3, 1)] } =
      some { table := .edges, index := 0, code := .E2 } ∧
    (SiteStore.recordFailure { shop with adjacency := [(1, 7)] } .adjacency 1).map Failure.code = some .A1 := by
  decide +kernel

/-- R60, R75: the walk of 130 dm at 130 cm/s costs 100 ds and the escalator 300: FOUND in 400 ds, 40 s, 1 minute, 240 dm. -/
theorem test_record_complete :
    let t := after (.recordComplete 0) searching
    (t.slot 0).map (fun h => (h.record.status, h.record.totalTime, h.record.seconds, h.record.minutes, h.record.distance,
        h.record.legs.length)) = some (.found, 400, 40, 1, 240, 2) ∧
      t.screen 2 = .ready 0 ∧ (t.lane 0).state = .free ∧ t.link.notices = [.resultReady 2 0 1 .found] := by decide +kernel

/-- 5.9, grant 1: SL1 alone is FREE; D is chosen for its assist flag, and A, B and C, ahead of it, gain a pass. -/
theorem test_grant :
    let waiting (screen passes : Nat) (assist : Bool) : QueueEntry :=
      { request := { request screen 0 with passes := passes, assist := assist }, egressMark := false }
    let s : State := { live with
      lanes := [(0, { searchingLane with request := some (request 40 0) }),
        (2, { searchingLane with request := some (request 41 0) }), (3, { searchingLane with request := some (request 42 0) })]
      dispatcher := { screens := [(2, .queued), (3, .queued), (7, .queued), (15, .queued), (22, .queued)]
                      queue := [waiting 2 6 false, waiting 7 0 false, waiting 15 0 false, waiting 22 0 true,
                        waiting 3 0 false] } }
    let t := after .grant s
    t.dispatcher.queue = [waiting 2 7 false, waiting 7 1 false, waiting 15 1 false, waiting 3 0 false] ∧
      (t.lane 1).request.map Request.screen = some 22 ∧ t.screen 22 = .active 1 := by decide

/-- R50: a request whose destination is its own node is ARRIVED at grant; R51: its own gate is looked up. -/
theorem test_grant_arrived :
    let s : State := { live with
      dispatcher := { screens := [(2, .queued)], queue := [{ request := { request 2 1 with destination := 2 }, egressMark := false }] }
      conditions := { live.conditions with gates := [(7, .closed)] } }
    ((after .grant s).slot 0).map (fun h => (h.record.status, h.record.destClosed, h.record.clockUnset, h.record.category)) =
      some (.arrived, true, true, 3) := by decide

/-- R89: an accepted ROUTE; R88: a destination that is UNUSED is refused BAD_DESTINATION (13). -/
theorem test_route :
    (after (.route [2, 1, 0, 0xFF, 7, 0, 1]) live).dispatcher.queue =
      [{ request := { screen := 2, destination := 1, choice := none, tag := 7, assist := true, passes := 0 }
         egressMark := false }] ∧
    replies (after (.route [2, 3, 0, 0xFF, 7, 0, 1]) live) = [(0x90, [13])] := by decide

/-- 4.12: COLLECT frees slot 7, which the lane at the head of the holders list takes at once. -/
theorem test_collect_grants_the_slot :
    let held (screen : Nat) : RouteRecord := { record with screen := screen }
    let s : State := { live with
      lanes := [(1, { searchingLane with state := .holding, record := some (held 9) })]
      dispatcher := { screens := [(9, .active 1), (20, .ready 7)], queue := [] }
      store := { slots := [(7, some { record := held 20, screen := 20, hold := 30 })], holders := [1] } }
    let t := after (.collect [20]) s
    t.screen 20 = .idle ∧ t.screen 9 = .ready 7 ∧ t.store.holders = [] ∧ (t.lane 1).state = .free ∧
      t.link.notices = [.resultReady 9 7 1 .unreachable] := by decide

/-- R81: an expiry offers RESULT EXPIRED and frees the slot. -/
theorem test_hold_timer_expiry :
    let t := after (.holdTimerExpiry 0) stored
    t.slot 0 = none ∧ t.screen 2 = .idle ∧ t.link.notices = [.resultExpired 2 1] := by decide

/-- R94: CANCEL of a SEARCHING lane's screen. -/
theorem test_cancel :
    let t := after (.cancel [2]) searching
    (t.lane 0).state = .free ∧ t.screen 2 = .idle ∧ replies t = [(0x91, [0])] := by decide

/-- 6.6: a second edit for a target replaces the first in place; a MOTION edit of a walk is BAD_TARGET (19). -/
theorem test_condition :
    let s := after (.condition [2, 5, 0, 1]) (after (.condition [1, 1, 0, 0]) live)
    (after (.condition [1, 1, 0, 2]) s).conditions.edits =
      [{ target := { kind := .motion, index := 1 }, value := .motion .stopped, source := .host },
       { target := { kind := .gate, index := 5 }, value := .closure .closed, source := .host }] ∧
    replies (after (.condition [1, 0, 0, 0]) live) = [(0x8C, [19])] := by decide

/-- R106: the live value, the default, and no pending edit. -/
theorem test_condition_read :
    replies (after (.conditionRead [1, 1, 0]) live) = [(0x8D, [0, 0, 0, 0xFF, 0xFF, 0xFF, 0xFF, 1, 0, 0])] := by decide

/-- 6.7: a turn that begins while a lane searches waits; TURN NOW then finds it WAITING and is answered ALREADY (3). -/
theorem test_turn_waits :
    let s := after .turnTimerExpiry (after (.condition [0, 0, 0, 1]) searching)
    s.conditions.turn = .waiting .timer ∧ s.closure 0 = .opened ∧
      (replies (after (.turnNow []) s)).getLast? = some (0x8E, [3]) := by decide

/-- R109, R111: TURN NOW with no lane SEARCHING applies at once. -/
theorem test_turn_now :
    let t := after (.turnNow []) (after (.condition [0, 0, 0, 1]) live)
    t.closure 0 = .closed ∧ t.conditions.epoch = 2 ∧ t.conditions.edits = [] ∧
      t.link.notices = [.turnDone 2 1 0 .request] := by decide +kernel

/-- 8.8: at 10:47:00 the entries of 08:00 and 10:30 survive, and the turn applies both with cause SCHEDULE. -/
theorem test_set_clock :
    let t := after (.setClock [0xA4, 0x97, 0, 0, 3]) live
    t.schedule.second = 38820 ∧ t.gate 6 = .closed ∧ t.motion 1 = some .stopped ∧
      t.link.notices = [.turnDone 2 2 0 .schedule] := by decide +kernel

/-- R138: the tick past midnight is the boundary of minute 0 of the next day. -/
theorem test_tick_past_midnight :
    let s : State := { live with schedule := { clockSet := true, second := 86399, day := 6, late := [], boundaryDue := false } }
    (after .tick s).schedule = { clockSet := true, second := 0, day := 0, late := [], boundaryDue := true } := by decide

/-- 8.9: an entry that meets a full list becomes LATE and is told; R143: after the turn it is offered again. -/
theorem test_late_entry :
    let full : List Edit := (List.range 64).map fun i =>
      { target := { kind := .edge, index := i }, value := .closure .opened, source := .host }
    let s : State := { live with
      schedule := { clockSet := true, second := 28800, day := 3, late := [], boundaryDue := true }
      conditions := { live.conditions with edits := full, turn := .waiting .timer } }
    let t := after .minuteBoundary s
    t.schedule.late = [0] ∧ t.link.notices = [.scheduleLate 0 { kind := .gate, index := 6 } 480 1] ∧
      (after .applyStep t).schedule.late = [] ∧ ((after .applyStep t).conditions.edits).length = 1 := by decide +kernel

/-- R120: the cycle polls the channels that are not OFF, in ascending order. -/
theorem test_poll_cycle :
    (after .sampleTimerExpiry live).flow.cycle =
      some { current := 0, phase := .sending, rest := [1], samples := [] } ∧
    (after .sampleTimerExpiry live).clde = true := by decide

/-- R121, R122, R131: a good reply of channel 1 with the count 20 ends the cycle and seeds the channel. -/
theorem test_counter_reply :
    let s : State := { live with flow := { live.flow with
      cycle := some { current := 1, phase := .listening, rest := [], samples := [(0, none)] } } }
    let t := after (.counterReply 0x5B 1 20 0 0x90) s
    t.flow.cycle = none ∧ t.channel 1 = tracking .clear 320 320 320 0 0 20 0 ∧ (t.channel 0).missed = 1 := by decide

/-- 9.8: EGRESS ENTER hands the lane's request back to the head of the queue, marked. -/
theorem test_egress_enter :
    let s : State := { searching with
      dispatcher := { screens := [(2, .active 0), (3, .queued)], queue := [entry 3 1] } }
    let t := after (.egressEnter []) s
    t.egress.cause = some .drill ∧ t.dispatcher.queue.map (fun e => (e.request.screen, e.egressMark)) = [(2, true), (3, true)] ∧
      (t.lane 0).state = .free ∧ t.link.notices = [.egress .entered .egress (some .drill) false] := by decide

/-- 9.8: the alarm that becomes CLEAR in a drill is told and ends nothing; EGRESS RESUME under it is ALARM_ACTIVE (25). -/
theorem test_alarm_in_a_drill :
    let s : State := { live with egress := { asserted := true, measuring := true, mode := .egress, cause := some .drill } }
    (after .alarmClear s).egress = { asserted := false, measuring := false, mode := .egress, cause := some .drill } ∧
      (after .alarmClear s).link.notices = [.egress .alarmClear .egress (some .drill) false] ∧
      replies (after (.egressResume []) s) = [(0x96, [25])] := by decide

/-- R14, R21: SITE OPEN from VALID while a lane searches drains; the queue is dropped first. -/
theorem test_site_open_drains :
    let s : State := { searching with
      dispatcher := { screens := [(2, .active 0), (3, .queued)], queue := [entry 3 1] } }
    let t := after (.siteOpen []) s
    t.site.state = .draining ∧ t.site.drain = some .openSession ∧ t.flow.timer = none ∧ t.conditions.timer = some 2 ∧
      t.link.notices = [.requestDropped 3 1 .site, .siteState .draining 1 .openSession] := by decide

/-- R17, R18: a gate written CLOSED is read back; gate 64 lies beyond the table (BAD_INDEX, 20). -/
theorem test_tables :
    let t := after (.tableWrite [7, 63, 0, 1, 0, 0, 0]) editing
    t.gateDefault 63 = .closed ∧ (replies (after (.tableRead [7, 63, 0, 1, 0]) t)).getLast? = some (0x89, [0, 1, 0, 0, 0]) ∧
      replies (after (.tableWrite [7, 64, 0, 1, 0, 0, 0]) editing) = [(0x88, [20])] := by decide

/-- 10.5: an erased header ends the load BAD_HEADER at H1, the tables as they were. -/
theorem test_bad_header :
    let s : State := { editing with
      site := { shop with state := .loading }
      transfer := { TransferUnit.cleared with state := .readHeader, operation := some .load, address := some 262144 } }
    let t := after (.headerRead (List.replicate 32 0xFF)) s
    t.site = { shop with state := .invalid } ∧ t.transfer.last = some (.load, .badHeader .H1) ∧
      t.link.notices = [.siteState .invalid 0 .load, .transferDone .load (.badHeader .H1) 262144 none none] := by decide

/-- R163, R164: after READY_WAIT a dump erases the sector at the image's address. -/
theorem test_dump_begins :
    let s := after (.siteDump [0, 0, 4, 0]) live
    s.transfer.operation = some .dump ∧ (after .busyClear s).transfer.state = .erase ∧
      (after .busyClear s).transfer.sent = [.writeEnable, .sectorErase 262144, .readStatus] := by decide +kernel

/-- R177: ALERT at the default follows the mode, and is low under RESET. -/
theorem test_alert :
    (after (.powerOnReset 0 false true) live).alert = true ∧
    (after (.resetAsserted 0 false) (after (.powerOnReset 0 false true) live)).alert = false := by decide

/-- R169: an eighth reply is a busy run, which is sent as LINK_BUSY (26) replies. -/
theorem test_busy_run :
    let s : State := { ready with link := { ready.link with replies := List.replicate 7 (.reply { kind := 0x81, payload := [0] }) } }
    (after (.status []) (after .linkBusy s)).link.replies.getLast? = some (.busyRun 2) ∧
    (after .frameBoundary { ready with link := { ready.link with replies := [.busyRun 2] } }).link.sending =
      some { kind := 0x80, payload := [26] } := by decide

/-- R168: a frame that states two payload bytes is in KIND after its length, in PAYLOAD after its kind and one byte, and in
CHECK after both; a length above 1024 is not passed. -/
theorem test_reception :
    (after (.sync [2, 0]) ready).link.reception = .kind ∧
    (after (.sync [2, 0, 0x12, 9]) ready).link.assembled = [0xA5, 2, 0, 0x12, 9] ∧
    (after (.sync [2, 0, 0x12, 9]) ready).link.reception = .payload ∧
    (after (.sync []) (after (.sync [2, 0, 0x12, 9]) ready)).link.reception = .check ∧
    (after (.sync [1, 4, 0x12]) ready).link.assembled = [0xA5, 1] := by decide

/-- R168: a TABLE WRITE of 1024 bytes is handed on, and one of 1027 bytes is answered ERROR BAD_LENGTH (6). -/
theorem test_table_write_too_long :
    RequestKind.tableWrite.lengthAllowed ([1, 0, 0] ++ List.replicate 1016 0) = true ∧
    replies (after (.tableWrite ([1, 0, 0] ++ List.replicate 1024 0)) editing) = [(0x80, [6])] := by decide +kernel

/-- R172: between a SOFT RESET and its reply no notice is sent, and the effect leaves a START notice. -/
theorem test_soft_reset :
    let s := after (.softReset []) { live with link := { live.link with notices := [.overrun 1] } }
    let sent := after .frameBoundary s
    sent.link.sending = some { kind := 0x83, payload := [0] } ∧ (after .frameBoundary sent).link.sending = none ∧
      (after .softResetEffect sent).link.notices = [.start .soft] ∧
      (after .softResetEffect sent).site.state = .valid := by decide

/-- The queue is served first in, first out. -/
theorem test_step_order :
    (match step { ready with pending := [.sync [], .tick] } with
      | .next t => (t.pending, t.link.reception)
      | .fault _ => ([], .hunt)
      | .refused _ => ([], .hunt)) = ([.tick], .length) := by decide

/-! ### Witnesses: states and operands that meet the hypotheses of the statements -/

def underReset : State := { live with pins := { live.pins with resetAsserted := true } }
def loadingUnit : TransferUnit :=
  { TransferUnit.cleared with state := .readyWait, operation := some .load, address := some 16777184 }
def dumpingUnit : TransferUnit :=
  { TransferUnit.cleared with
    state := .erase, operation := some .dump, address := some 4096, imageLength := some 3264, offset := 0 }
def resetting : State := { live with link := { live.link with softReset := true } }
def fullReplies : List ReplyEntry := List.replicate 6 (.reply { kind := 0x81, payload := [0] }) ++ [.busyRun 65535]
def fullQueue : State := { live with link := { live.link with replies := fullReplies, gapTimer := true } }
def inEgress : State := { live with egress := { live.egress with mode := .egress, cause := some .drill } }
def draining : State :=
  { searching with site := { shop with state := .draining, generation := 1, drain := some (.load 0) } }
def drained : State := { draining with lanes := [] }

theorem searching_lane : searching.Searching := ⟨0, by decide, rfl⟩
theorem live_not_searching : ¬ live.Searching := by rintro ⟨l, _, h⟩; cases h
theorem queued_not_searching : ¬ queued.Searching := by rintro ⟨l, _, h⟩; cases h

theorem witness_AssertedResetStopsThePart :
    underReset.pins.resetAsserted = true ∧ (∀ a b c, Instr.tick ≠ .powerOnReset a b c) ∧
      (∀ a b, Instr.tick ≠ .resetAsserted a b) ∧ live.transfer.state = .idle ∧
      ({ live with transfer := loadingUnit } : State).transfer.state ≠ .idle :=
  ⟨rfl, nofun, nofun, rfl, nofun⟩

theorem witness_SoftResetIsTakenAndEndsReception :
    State.reset.Open ∧ (Instr.status []).wholeFrame ∧ (∃ bytes, Instr.sync [0] = .sync bytes) ∧
      resetting.link.softReset = true :=
  ⟨⟨rfl, rfl, by decide⟩, .inl rfl, ⟨_, rfl⟩, rfl⟩

theorem witness_SoftResetTakesEffect :
    (resetting.Running ∧ resetting.link.softReset = true ∧ resetting.link.replies = [] ∧ resetting.transfer.state = .idle) ∧
      let s : State := { resetting with transfer := dumpingUnit }
      s.Running ∧ s.link.softReset = true ∧ s.link.replies = [] ∧ s.transfer.state ≠ .idle :=
  ⟨⟨rfl, rfl, rfl, rfl⟩, rfl, rfl, rfl, nofun⟩

theorem witness_AlertFollowsItsSource :
    underReset.pins.resetAsserted = true ∧ live.Running ∧
      ∀ source ∈ [AlertSource.egress, .anyCrowded, .siteNotValid, .startPending, .noticeBacklog, .fixedLow, .fixedHigh],
        ({ live.link.parameters with alertSource := source } : Parameters).alertSource = source := by
  exact ⟨rfl, rfl, by decide⟩

theorem witness_FramesBeginAndBadFramesAreAnsweredError :
    (let held (reception : Reception) (frame : List Byte) : HostLink :=
       { ready.link with reception := reception, assembled := frame, gapTimer := true }
     ((held .length [0xA5]).reception = .length ∧ (held .length [0xA5]).assembled = [0xA5] ∧
       (held .length [0xA5, 9]).assembled = [0xA5, 9]) ∧
     ((held .kind [0xA5, 0, 4]).reception = .kind ∧ (held .kind [0xA5, 0, 4]).assembled = [0xA5, 0, 4] ∧
       (List.replicate 1023 (0 : Byte)).length < (0 : Byte).toNat + 256 * (4 : Byte).toNat) ∧
     ((held .payload [0xA5, 2, 0, 1, 7]).reception = .payload ∧
       (held .payload [0xA5, 2, 0, 1]).assembled = 0xA5 :: 2 :: 0 :: 1 :: [] ∧
       ([] : List Byte).length + 1 + ([] : List Byte).length < (2 : Byte).toNat + 256 * (0 : Byte).toNat ∧
       ([] : List Byte).length + 1 + ([8] : List Byte).length = (2 : Byte).toNat + 256 * (0 : Byte).toNat) ∧
     (held .check [0xA5, 0, 0, 1]).reception = .check ∧
     (0 : Byte).toNat + 256 * (4 : Byte).toNat ≤ 1024 ∧ 1024 < (1 : Byte).toNat + 256 * (4 : Byte).toNat ∧
     (List.replicate 1024 (0 : Byte)).length = (0 : Byte).toNat + 256 * (4 : Byte).toNat) ∧
    ready.Open ∧ ready.link.reception = .hunt ∧
      (([1] : List Byte).map BitVec.toNat).sum % 256 ≠ 0 ∧ (0x16 < (0x17 : Byte).toNat) ∧
      1024 < (1025 : BitVec 16).toNat ∧ ({ ready.link with gapTimer := true } : HostLink).gapTimer = true ∧
      (none : Option Byte) ≠ some 0xA5 ∧ some (0 : Byte) ≠ some 0xA5 :=
  ⟨⟨⟨rfl, rfl, rfl⟩, ⟨rfl, rfl, by rw [List.length_replicate]; decide⟩, ⟨rfl, rfl, by decide, by decide⟩, rfl,
      by decide, by decide, by rw [List.length_replicate]; decide⟩,
    ⟨rfl, rfl, by decide⟩, rfl, by decide, by decide, by decide, rfl, nofun, by decide⟩

theorem witness_FullReplyQueueCountsBusyReplies :
    fullQueue.Running ∧ fullQueue.link.softReset = false ∧ 7 ≤ fullQueue.link.replies.length ∧
      fullQueue.link.replies.getLast? = some (.busyRun 65535) ∧ (Instr.status []).wholeFrame ∧
      (Instr.unknownKind 0x17).wholeFrame ∧
      (∃ late : Option Byte, late ≠ some 0xA5 ∧ Instr.frameTimeout (some 0) = .frameTimeout late) ∧
      fullQueue.link.gapTimer = true :=
  ⟨rfl, rfl, by decide, rfl, .inl rfl, .inr (.inr (.inl ⟨_, rfl, by decide⟩)), ⟨some 0, by decide, rfl⟩, rfl⟩

theorem witness_NotStartedBeforeAckStart :
    let p : List Byte := [2, 0, 0, 0xFF, 0, 0, 0]
    (Instr.route p).requestOf = some (.route, p) ∧ State.reset.Open ∧ State.reset.link.startPending = true ∧
      RequestKind.route.lengthAllowed p = true ∧ RequestKind.route ≠ .ackStart ∧ RequestKind.route ≠ .status ∧
      RequestKind.route ≠ .getParam ∧ RequestKind.route ≠ .softReset :=
  ⟨rfl, ⟨rfl, rfl, by decide⟩, rfl, by decide, nofun, nofun, nofun, nofun⟩

theorem witness_WrongPayloadLengthIsRefused :
    (Instr.status [0]).requestOf = some (.status, [0]) ∧ ready.Open ∧ RequestKind.status.lengthAllowed [0] = false ∧
      ([0] : List Byte).length ≤ 1024 ∧ 1024 < (List.replicate 1025 (0 : Byte)).length ∧
      RequestKind.tableWrite.lengthAllowed [7, 0] = false ∧ RequestKind.tableWrite.lengthAllowed [7, 0, 0, 1] = false :=
  ⟨rfl, ⟨rfl, rfl, by decide⟩, by decide, by decide, by rw [List.length_replicate]; decide, by decide, by decide⟩

theorem witness_FrameBoundarySendsRepliesFirst :
    live.Running ∧ fullQueue.link.replies = .reply { kind := 0x81, payload := [0] } :: fullReplies.tail ∧
      (let k : HostLink := { live.link with replies := [.busyRun 1] }; k.replies = .busyRun 1 :: []) ∧
      (live.link.replies = [] ∧ live.link.notices = []) ∧
      (resetting.link.replies = [] ∧ resetting.link.softReset = true) ∧
      (State.reset.Running ∧ State.reset.link.replies = [] ∧ State.reset.link.softReset = false ∧
        State.reset.link.notices = .start .powerOn :: [] ∧ State.reset.link.overrunMark = false) :=
  ⟨rfl, rfl, rfl, ⟨rfl, rfl⟩, ⟨rfl, rfl⟩, rfl, rfl, rfl, rfl, rfl⟩

/-- A full notice queue with the overrun mark set, without and with an OVERRUN that waits. -/
theorem witness_OverrunIsOfferedWhenRoomAppears :
    let rest := (List.range 47).map waitingNotice
    let k : HostLink := { live.link with notices := waitingNotice 50 :: rest, overrunMark := true, dropped := 3 }
    let s : State := { live with link := k }
    let s' : State := { live with link := { k with notices := waitingNotice 50 :: [.overrun 255] } }
    (s.Running ∧ s.link.replies = [] ∧ s.link.softReset = false ∧ s.link.notices = waitingNotice 50 :: rest ∧
      rest.length < 48 ∧ s.link.overrunMark = true ∧ s.link.parameters.enables.getLsbD 12 = true ∧
      ∀ m ∈ rest, m.number ≠ 12) ∧
    (s'.link.notices = waitingNotice 50 :: ([] ++ .overrun 255 :: []) ∧
      s'.link.parameters.enables.getLsbD 12 = true ∧ ∀ m ∈ ([] ++ [] : List Notice), m.number ≠ 12) ∧
    ({ k.parameters with enables := 1 } : Parameters).enables.getLsbD 12 = false := by
  exact ⟨⟨rfl, rfl, rfl, rfl, by decide, rfl, by decide, by decide⟩, ⟨rfl, by decide, by decide⟩, by decide⟩

theorem witness_NoticesAreQueuedByKindAndSubject :
    ({ live.link.parameters with enables := 1 } : Parameters).enables.getLsbD (waitingNotice 0).number = false ∧
    (live.link.parameters.enables.getLsbD (waitingNotice 0).number = true ∧
      (∀ m ∈ live.link.notices, ¬(m.number = (waitingNotice 0).number ∧ m.subject = (waitingNotice 0).subject)) ∧
      live.link.notices.length < 48) ∧
    (let queue := (List.range 48).map waitingNotice
     (∀ m ∈ queue, ¬(m.number = (waitingNotice 63).number ∧ m.subject = (waitingNotice 63).subject)) ∧ 48 ≤ queue.length) ∧
    (backlog.notices = backlog.notices.dropLast ++ waitingNotice 14 :: [] ∧
      (waitingNotice 14).number = (Notice.flowLevel 14 .busy .crowded).number ∧
      (waitingNotice 14).subject = (Notice.flowLevel 14 .busy .crowded).subject ∧
      ∀ x ∈ backlog.notices.dropLast ++ [], ¬(x.number = 5 ∧ x.subject = some 14)) := by
  refine ⟨by decide, ⟨by decide, by decide, by decide⟩, ⟨by decide, by decide⟩, by decide, by decide, by decide, by decide⟩

theorem witness_AckStartEndsTheStart :
    (ready.Open ∧ ready.link.startPending = false) ∧
      (State.reset.Open ∧ State.reset.link.startPending = true ∧ State.reset.link.overrunMark = false) ∧
      (let k : HostLink := { State.reset.link with
         notices := .start .powerOn :: (List.range 47).map waitingNotice, overrunMark := true, dropped := 3 }
       Notice.start .powerOn ∈ k.notices ∧ (Notice.start .powerOn).number = 0 ∧ k.overrunMark = true ∧
         k.notices.length ≤ 48 ∧ k.parameters.enables.getLsbD 12 = true ∧
         (∀ m ∈ k.notices.filter fun n => n.number ≠ 0, m.number ≠ 12) ∧
         ({ k.parameters with enables := 1 } : Parameters).enables.getLsbD 12 = false ∧
         ([Notice.start .powerOn, .overrun 255].filter fun n => n.number ≠ 0) = [] ++ .overrun 255 :: []) ∧
      let s : State := { State.reset with link := { State.reset.link with repeatTimer := true } }
      s.Running ∧ s.link.repeatTimer = true ∧ s.link.startPending = true :=
  ⟨⟨⟨rfl, rfl, by decide⟩, rfl⟩, ⟨⟨rfl, rfl, by decide⟩, rfl, rfl⟩,
    ⟨by decide, rfl, rfl, by decide, by decide, by decide, by decide, by decide⟩, rfl, rfl, rfl⟩

theorem witness_ReportsChangeNothing :
    ((Instr.flowRead [64]).requestOf = some (.flowRead, [64]) ∧ RequestKind.flowRead.lengthAllowed [64] = true ∧
      live.Open ∧ live.link.startPending = false) ∧
      (Instr.status []).requestOf = some (.status, []) ∧ RequestKind.status.lengthAllowed [] = true ∧ State.reset.Open ∧
      State.reset.link.startPending = true :=
  ⟨⟨rfl, by decide, live_started.1, rfl⟩, rfl, by decide, ⟨rfl, rfl, by decide⟩, rfl⟩

/-- In IDLE and during a transfer. -/
theorem witness_StatusReportsThePart :
    State.reset.Open ∧ (searching.Open ∧ searching.transfer.state = .idle) ∧
      let s : State := { live with transfer := { dumpingUnit with last := some (.load, .valid) } }
      s.Open ∧ s.transfer.state ≠ .idle :=
  ⟨⟨rfl, rfl, by decide⟩, ⟨searching_started.1, rfl⟩, ⟨rfl, rfl, by decide⟩, nofun⟩

theorem witness_SetParamStoresWithinRange :
    live.Started ∧ 65535 < 65536 ∧
      [AlertSource.egress, .anyCrowded, .siteNotValid, .startPending, .noticeBacklog, .fixedLow, .fixedHigh][6]? =
        some .fixedHigh ∧ 7 ≤ 7 ∧ [AlertPolarity.activeHigh, .activeLow][1]? = some .activeLow ∧ 2 ≤ 2 ∧
      (7 = 0 ∨ 6 < 7) ∧ 255 < 256 :=
  ⟨live_started, by decide, rfl, by decide, rfl, by decide, by decide, by decide⟩

theorem witness_GetParamReportsTheValueHeld : State.reset.Open ∧ ((7 : Byte) = 0 ∨ 6 < (7 : Byte).toNat) :=
  ⟨⟨rfl, rfl, by decide⟩, by decide⟩

theorem witness_ScreenAndFlowReports :
    (live.Started ∧ 64 ≤ (64 : Byte).toNat ∧ (63 : Byte).toNat < 64 ∧ live.screen 63 = .idle) ∧
    (queued.Started ∧ queued.screen 2 = .queued ∧ queued.dispatcher.queue = [] ++ entry 2 1 :: [] ∧
      (entry 2 1).request.screen = 2) ∧
    (searching.Started ∧ searching.screen 2 = .active 0 ∧ (searching.lane 0).request = some (request 2 1)) ∧
    (stored.Started ∧ stored.screen 2 = .ready 0 ∧ stored.slot 0 = some { record := record, screen := 2, hold := 30 }) :=
  ⟨⟨live_started, by decide, by decide, rfl⟩, ⟨queued_started, rfl, rfl, rfl⟩, ⟨searching_started, rfl, rfl⟩,
    stored_started, rfl, rfl⟩

theorem witness_RecordsRoundTrip :
    (Record.edge { Edge.cleared with
      a := 2047, b := 2047, length := 4095, heading := none, rideCode := 15, gate := some 63, channel := some 63 }).inRange =
        true ∧
    (Record.schedule { ScheduleEntry.cleared with minute := 1439, target := { kind := .gate, index := 63 } }).inRange = true :=
  ⟨by decide, by decide⟩

/-- Nodes take 8 bytes, so 127 of them fit a reply and 128 do not. -/
theorem witness_TableReadAnswersTheRecords :
    live.Started ∧ ({ live with site := { shop with state := .loading } } : State).site.state = .loading ∧
      live.site.state ≠ .loading ∧ 12 ≤ 12 ∧ TableId.ofCode 1 = some .nodes ∧ TableId.nodes.capacity ≤ 2048 ∧
      TableId.nodes.capacity < 2047 + 2 ∧ 2047 < TableId.nodes.capacity ∧ 2047 + 1 ≤ TableId.nodes.capacity ∧
      1024 < 1 + 128 * TableId.nodes.recordBytes ∧ 1 + 127 * TableId.nodes.recordBytes ≤ 1024 ∧
      0 + 127 ≤ TableId.nodes.capacity :=
  ⟨live_started, rfl, nofun, by decide, rfl, by decide, by decide, by decide, by decide, by decide, by decide, by decide⟩

theorem witness_TableWriteReplacesTheRecords :
    let records := [Record.gate .closed]
    editing.Started ∧ editing.site.Canonical ∧ editing.site.state = .editing ∧
      (∀ r ∈ records, r.table = .gates ∧ r.inRange = true) ∧ 63 < TableId.gates.capacity ∧
      63 + records.length ≤ TableId.gates.capacity ∧ 3 + records.length * TableId.gates.recordBytes ≤ 1024 :=
  ⟨editing_started, editing_canonical.site, rfl, by decide, by decide, by decide, by decide⟩

theorem witness_TableWriteRefusalsWriteNothing :
    (live.Started ∧ live.site.state ≠ .editing ∧ live.site.state ≠ .invalid ∧
      RequestKind.tableWrite.lengthAllowed (le8 12 ++ le16 65535 ++ []) = true) ∧
    editing.Started ∧ editing.site.state = .editing ∧ TableId.ofCode 7 = some .gates ∧
      TableId.gates.capacity < 63 + ([0, 0, 0, 0, 0, 0, 0, 0] : List Byte).length / TableId.gates.recordBytes ∧
      63 + ([2, 0, 0, 0] : List Byte).length / TableId.gates.recordBytes ≤ TableId.gates.capacity ∧
      RequestKind.tableWrite.lengthAllowed (le8 7 ++ le16 63 ++ [2, 0, 0, 0]) = true ∧
      Record.ofBytes .gates ((([2, 0, 0, 0] : List Byte).drop (0 * TableId.gates.recordBytes)).take TableId.gates.recordBytes) =
        none :=
  ⟨⟨live_started, nofun, nofun, by decide⟩, editing_started, rfl, rfl, by decide, by decide, by decide, by decide⟩

theorem witness_SiteOpenOpensOrDrains :
    (live.Started ∧ live.Canonical ∧ live.transfer.state = .idle ∧ live.egress.mode = .normal ∧ live.site.state = .valid ∧
      ¬ live.Searching) ∧
    (searching.Started ∧ searching.Canonical ∧ searching.transfer.state = .idle ∧ searching.egress.mode = .normal ∧
      searching.site.state = .valid ∧ searching.Searching) ∧
    (editing.Started ∧ editing.Canonical ∧ editing.site.state = .editing) ∧
    (inEgress.Started ∧ inEgress.Canonical ∧ inEgress.egress.mode = .egress) ∧
    (draining.Started ∧ draining.Canonical ∧ draining.site.state = .draining ∧ draining.egress.mode = .normal) ∧
    ready.Started ∧ ready.site.state = .empty ∧ ({ live with transfer := dumpingUnit } : State).transfer.state ≠ .idle :=
  ⟨⟨live_started, live_canonical, rfl, rfl, rfl, live_not_searching⟩,
    ⟨searching_started, searching_canonical, rfl, rfl, rfl, searching_lane⟩, ⟨editing_started, editing_canonical, rfl⟩,
    ⟨⟨⟨rfl, rfl, by decide⟩, rfl⟩, canonical_of { shop_canonical with } (by decide) (by decide), rfl⟩,
    ⟨⟨⟨rfl, rfl, by decide⟩, rfl⟩, canonical_of { shop_canonical with } (by decide) (by decide), rfl, rfl⟩,
    ready_started, rfl, nofun⟩

/-- The highest address whose header fits the flash is 16777184. -/
theorem witness_SiteLoadStartsOrWaits :
    (searching.Started ∧ searching.Canonical ∧ 16777184 + 32 ≤ 16777216 ∧ 16777216 < 16777185 + 32 ∧
      4294967295 < 4294967296 ∧ searching.transfer.state = .idle ∧ searching.egress.mode = .normal ∧
      searching.site.state = .valid ∧ searching.Searching) ∧
    (live.Started ∧ live.Canonical ∧ live.site.state = .valid ∧ ¬ live.Searching) ∧
    editing.Started ∧ editing.Canonical ∧ editing.egress.mode = .normal ∧ editing.site.state = .editing :=
  ⟨⟨searching_started, searching_canonical, by decide, by decide, by decide, rfl, rfl, rfl, searching_lane⟩,
    ⟨live_started, live_canonical, rfl, live_not_searching⟩, editing_started, editing_canonical, rfl, rfl⟩

theorem witness_DrainEndsWhenNoLaneSearches :
    (draining.Running ∧ draining.site.state = .draining ∧ draining.Searching) ∧
      (drained.Running ∧ drained.site.state = .draining ∧ ¬ drained.Searching ∧ drained.site.drain = some (.load 0)) ∧
      ({ drained.site with drain := some .openSession } : SiteStore).drain = some .openSession :=
  ⟨⟨rfl, rfl, 0, by decide, rfl⟩, ⟨rfl, rfl, (by rintro ⟨l, _, h⟩; cases h), rfl⟩, rfl⟩

theorem witness_SiteCloseEntersValid :
    editing.Started ∧ editing.transfer.state = .idle ∧ editing.site.state = .editing ∧ editing.site.firstFailure = none ∧
      editing.schedule.clockSet = false ∧ editing.site.header.edgeCount ≤ 2 ∧ ¬ editing.Searching :=
  ⟨editing_started, rfl, rfl, by decide +kernel, rfl, by decide, by rintro ⟨l, _, h⟩; cases h⟩

theorem witness_SiteCloseReportsTheFirstFailure :
    let s : State := { editing with site := { editing.site with profiles := [] } }
    (s.Started ∧ s.transfer.state = .idle ∧ s.site.state = .editing ∧
      s.site.firstFailure = some { table := .profiles, index := 7, code := .P1 }) ∧
    live.Started ∧ live.site.state = .valid ∧ ({ live with transfer := dumpingUnit } : State).transfer.state ≠ .idle :=
  ⟨⟨⟨⟨rfl, rfl, by decide⟩, rfl⟩, rfl, rfl, by decide +kernel⟩, live_started, rfl, nofun⟩

theorem witness_ValidationReportsTheEarliestFailure :
    SiteStore.firstFailure { shop with profiles := [] } = some { table := .profiles, index := 7, code := .P1 } ∧
      CheckCode.P1 ≠ .G3 ∧
    SiteStore.firstFailure { shop with header := { shop.header with exitGroup := 2 } } =
      some { table := .groups, index := 2, code := .G3 } ∧
    TableId.imageOrder = [.nodes, .edges, .adjacency, .groups, .members, .directory, .gates] ++ .profiles ::
      [.screens, .channels, .schedule] := ⟨by decide +kernel, nofun, by decide +kernel, rfl⟩

/-- MOTION of the escalator of index 1 with RUN_BA, GATE 63, a full list, and a target that stands in the list. -/
theorem witness_ConditionIsCheckedAndPlaced :
    let gate63 : Target := { kind := .gate, index := 63 }
    let motion1 : Target := { kind := .motion, index := 1 }
    let full : List Edit := (List.range 64).map fun i =>
      { target := { kind := .edge, index := i }, value := .closure .opened, source := .host }
    (State.reset.Open ∧ State.reset.link.startPending = true ∧ 2 < 256 ∧ 65535 < 65536) ∧
    (live.Started ∧ live.site.state = .valid ∧ editing.site.state ≠ .valid ∧ 3 ≤ 3 ∧ live.site.header.edgeCount ≤ 2 ∧
      64 ≤ 64) ∧
    (0 < live.site.header.edgeCount ∧ ¬((live.edge 0).cls = .escalator ∨ (live.edge 0).cls = .travelator)) ∧
    (motion1.kind = .motion ∧ 1 < live.site.header.edgeCount ∧ (live.edge 1).cls = .escalator ∧ 3 ≤ 3 ∧
      (Setting.motion .runBA).code = 1 ∧ (Setting.motion .runBA).belongsTo motion1.kind = true) ∧
    (gate63.kind = .gate ∧ 63 < 64 ∧ gate63.kind ≠ .motion ∧ 2 ≤ 2 ∧ (Setting.closure .closed).code = 1 ∧
      (Setting.closure .closed).belongsTo gate63.kind = true) ∧
    ((∀ e ∈ live.conditions.edits, e.target ≠ gate63) ∧ live.conditions.edits.length < 64) ∧
    ((∀ e ∈ full, e.target ≠ gate63) ∧ 64 ≤ full.length) ∧
    (let e : Edit := { target := gate63, value := .closure .opened, source := .schedule 0 }
     [e] = [] ++ e :: [] ∧ e.target = gate63 ∧ ∀ x ∈ ([] ++ [] : List Edit), x.target ≠ gate63) := by
  refine ⟨⟨⟨rfl, rfl, by decide⟩, rfl, by decide, by decide⟩, ⟨live_started, rfl, nofun, by decide, by decide, by decide⟩,
    ⟨by decide, by decide⟩, ⟨rfl, by decide, rfl, by decide, rfl, rfl⟩, ⟨rfl, by decide, nofun, by decide, rfl, rfl⟩,
    ⟨by decide, by decide⟩, ⟨by decide, by decide⟩, rfl, rfl, by decide⟩

theorem witness_ConditionReadReportsTheTarget :
    let gate6 : Target := { kind := .gate, index := 6 }
    let e : Edit := { target := gate6, value := .closure .closed, source := .schedule 0 }
    (live.Started ∧ live.site.state = .valid ∧ editing.site.state ≠ .valid ∧ editing.site.state ≠ .draining) ∧
    (gate6.kind = .gate ∧ 6 < 64) ∧ (1 < live.site.header.edgeCount ∧ (live.edge 1).cls = .escalator) ∧
    live.motion 1 = some .runAB ∧ (live.edge 1).direction.code = Motion.code .runAB ∧
    (∀ x ∈ live.conditions.edits, x.target ≠ gate6) ∧
    ([e] = [] ++ e :: [] ∧ e.target = gate6 ∧ ∀ x ∈ ([] : List Edit), x.target ≠ gate6) :=
  ⟨⟨live_started, rfl, nofun, nofun⟩, ⟨rfl, by decide⟩, ⟨by decide, rfl⟩, rfl, rfl, by decide, rfl, rfl, by decide⟩

def edited : List Edit := [{ target := { kind := .gate, index := 6 }, value := .closure .closed, source := .host }]

theorem witness_TurnsBeginOnRequestAndByTimer :
    let work (s : State) (turn : TurnState) : State :=
      { s with conditions := { s.conditions with edits := edited, turn := turn } }
    ((work live .idle).Started ∧ (work live .idle).site.state = .valid ∧ (work live .idle).conditions.turn = .idle ∧
      (work live .idle).HasWork ∧ ¬ (work live .idle).Searching) ∧
    ((work searching .idle).Started ∧ (work searching .idle).HasWork ∧ (work searching .idle).Searching) ∧
    ((work searching (.waiting .timer)).Started ∧
      (work searching (.waiting .timer)).conditions.turn = .waiting .timer) ∧
    (live.Started ∧ live.conditions.turn = .idle ∧ ¬ live.HasWork ∧ live.Running ∧ live.conditions.timer = some 2) ∧
    editing.Started ∧ editing.site.state ≠ .valid ∧ editing.site.state ≠ .draining := by
  refine ⟨⟨⟨⟨rfl, rfl, by decide⟩, rfl⟩, rfl, rfl, .inl nofun, live_not_searching⟩,
    ⟨⟨⟨rfl, rfl, by decide⟩, rfl⟩, .inl nofun, searching_lane⟩, ⟨⟨⟨rfl, rfl, by decide⟩, rfl⟩, rfl⟩,
    ⟨live_started, rfl, ?_, rfl, rfl⟩, editing_started, nofun, nofun⟩
  rintro (h | ⟨c, hc, h⟩)
  · exact h rfl
  · revert c; decide

/-- A turn that waits with an edit and a LATE entry, without and with a searching lane, in VALID and in EDITING. -/
def turning (s : State) : State :=
  { s with
    conditions := { s.conditions with edits := edited, turn := .waiting .timer }
    schedule := { s.schedule with late := [1, 2] } }

theorem witness_ApplyStepAppliesTheTurn :
    ((turning live).Running ∧ (turning live).conditions.turn = .waiting .timer ∧ ¬ (turning live).Searching ∧
      (turning live).Canonical ∧ ((turning live).conditions.edits.map Edit.target).Nodup ∧
      (∀ e ∈ (turning live).conditions.edits, e.value.belongsTo e.target.kind = true) ∧
      (turning live).site.state = .valid ∧ (turning live).schedule.late.length ≤ 64 ∧
      (turning live).schedule.late = [1] ++ 2 :: [] ∧
      ∀ j ∈ ([] : List Nat), ((turning live).scheduleEntry j).target ≠ ((turning live).scheduleEntry 2).target) ∧
    ((turning searching).conditions.turn = .waiting .timer ∧ (turning searching).Searching) ∧
    (turning editing).conditions.turn = .waiting .timer ∧ ¬ (turning editing).Searching ∧
      (turning editing).site.state ≠ .valid := by
  refine ⟨⟨rfl, rfl, live_not_searching, canonical_of { shop_canonical with } (by decide) (by decide), by decide, by decide,
    rfl, by decide, rfl, by decide⟩, ⟨rfl, searching_lane⟩, rfl, ?_, nofun⟩
  rintro ⟨l, _, h⟩; cases h

theorem witness_TickAdvancesTheClock :
    let at_ (second : Nat) : State :=
      { live with schedule := { clockSet := true, second := second, day := 6, late := [], boundaryDue := false } }
    (live.Running ∧ live.schedule.clockSet = false) ∧
      ((at_ 86398).schedule.clockSet = true ∧ (at_ 86398).schedule.second < 86399) ∧ (at_ 86399).schedule.second = 86399 :=
  ⟨⟨rfl, rfl⟩, ⟨rfl, by decide⟩, rfl⟩

/-- 08:00 on day 3: entry 0 is due. -/
theorem witness_MinuteBoundaryFiresTheDueEntries :
    let morning (s : State) : State :=
      { s with schedule := { clockSet := true, second := 28800, day := 3, late := [0], boundaryDue := true } }
    ((morning live).Running ∧ (morning live).schedule.boundaryDue = true ∧ (morning live).schedule.clockSet = true ∧
      (morning live).site.state = .valid ∧
      (morning live).conditions.edits.length + (morning live).site.header.scheduleCount ≤ 64 ∧
      ((morning live).conditions.edits.map Edit.target).Nodup ∧
      (morning live).Fires 3 0 ∧ ((morning live).scheduleEntry 0).minute = 28800 / 60) ∧
    ((morning draining).site.state = .draining ∧ ((morning draining).conditions.edits.map Edit.target).Nodup ∧ (morning editing).site.state ≠ .valid ∧
      (morning editing).site.state ≠ .draining) ∧ live.schedule.boundaryDue = false :=
  ⟨⟨rfl, rfl, rfl, rfl, by decide, by decide, ⟨by decide, rfl, by decide⟩, rfl⟩, ⟨rfl, by decide, nofun, nofun⟩, rfl⟩

/-- In VALID and DRAINING, with LATE entries, and the turn IDLE or WAITING with and without a searching lane. -/
theorem witness_SetClockWritesTheClock :
    (live.Started ∧ 86399 < 86400 ∧ 6 < 7 ∧ 86399 ≤ 86399 ∧ 6 ≤ 6 ∧ live.site.state = .valid ∧
      editing.Started ∧ editing.site.state ≠ .valid ∧ editing.site.state ≠ .draining ∧ 4294967295 < 4294967296) ∧
    (let late (s : State) : State := { s with
       conditions := { s.conditions with edits := edited }
       schedule := { s.schedule with late := [1, 2] } }
     ((late live).Started ∧ (late live).site.state = .valid ∧ (late live).schedule.late.Nodup ∧
       ((late live).conditions.edits.map Edit.target).Nodup ∧ (late live).conditions.turn = .idle ∧
       (late live).HasWork ∧ ¬ (late live).Searching) ∧
     ((late searching).Started ∧ (late searching).Searching) ∧
     ((late draining).Started ∧ (late draining).site.state = .draining ∧ (late draining).HasWork)) ∧
    ((turning live).Started ∧ (turning live).conditions.turn ≠ .idle) :=
  ⟨⟨live_started, by decide, by decide, by decide, by decide, rfl, editing_started, nofun, nofun, by decide⟩,
    ⟨⟨⟨⟨rfl, rfl, by decide⟩, rfl⟩, rfl, by decide, by decide, rfl, .inl nofun, live_not_searching⟩,
      ⟨⟨⟨rfl, rfl, by decide⟩, rfl⟩, searching_lane⟩, ⟨⟨rfl, rfl, by decide⟩, rfl⟩, rfl, .inl nofun⟩,
    ⟨⟨rfl, rfl, by decide⟩, rfl⟩, nofun⟩

theorem witness_CatchUpKeepsTheLatestEntry :
    searching.Started ∧ searching.Searching ∧ searching.site.state = .valid ∧ searching.conditions.edits = [] ∧
      searching.schedule.late = [] ∧ searching.site.header.scheduleCount ≤ 64 ∧ 38820 ≤ 86399 ∧ 3 ≤ 6 ∧
      searching.Fires 3 2 ∧ (searching.scheduleEntry 2).minute ≤ 38820 / 60 :=
  ⟨searching_started, searching_lane, rfl, rfl, rfl, by decide, by decide, by decide, ⟨by decide, rfl, by decide⟩, by decide⟩

/-- Each check of a ROUTE failing first, at the boundary of its range. -/
theorem witness_RouteIsRefusedByTheFirstFailingCheck :
    let crowd : State := { live with dispatcher := { screens := [], queue := List.replicate 32 (entry 3 0) } }
    (State.reset.Open ∧ State.reset.link.startPending = true) ∧
    (live.Open ∧ live.link.startPending = false ∧ editing.site.state ≠ .valid ∧ live.site.state = .valid) ∧
    (64 ≤ 64 ∧ (live.screenRecord 63).enabled = false ∧ 22 < 64 ∧ (live.screenRecord 22).enabled = true) ∧
    (1024 ≤ 1024 ∧ live.site.header.directoryCount ≤ 4 ∧ (live.directoryEntry 3).kind = .unused ∧
      2 < live.site.header.directoryCount ∧ (live.directoryEntry 2).kind ≠ .unused) ∧
    (7 < 8 ∧ 254 < 255 ∧ ∀ p, some 7 = some p → p ≤ 7) ∧
    (queued.screen 2 = .queued ∧ searching.screen 2 = .active 0 ∧ stored.screen 2 = .ready 0) ∧
    (crowd.screen 2 = .idle ∧ 32 ≤ crowd.dispatcher.queue.length) :=
  ⟨⟨⟨rfl, rfl, by decide⟩, rfl⟩, ⟨live_started.1, rfl, nofun, rfl⟩, ⟨by decide, rfl, by decide, rfl⟩,
    ⟨by decide, by decide, rfl, by decide, nofun⟩,
    ⟨by decide, by decide, fun p h => by injection h with h; omega⟩, ⟨rfl, rfl, rfl⟩, rfl, by decide⟩

theorem witness_AcceptedRouteJoinsTheTail :
    live.Started ∧ live.site.state = .valid ∧ 2 < 64 ∧ (live.screenRecord 2).enabled = true ∧ 2 < 1024 ∧
      2 < live.site.header.directoryCount ∧ (live.directoryEntry 2).kind ≠ .unused ∧ (∀ p, none = some p → p ≤ 7) ∧
      65535 < 65536 ∧ live.screen 2 = .idle ∧ live.dispatcher.queue.length < 32 :=
  ⟨live_started, rfl, by decide, rfl, by decide, by decide, nofun, nofun, by decide, rfl, by decide⟩

/-- SL1 holds screen 9's record behind a full store; screen 20 is READY with slot 7 (chapter 4.12, one slot shown). -/
def holding : State :=
  { live with
    lanes := [(1, { searchingLane with
      state := .holding, request := some (request 9 1), record := some { record with screen := 9 } })]
    dispatcher := { screens := [(9, .active 1), (20, .ready 7)], queue := [] }
    store := { slots := [(7, some { record := { record with screen := 20 }, screen := 20, hold := 30 })], holders := [1] } }

theorem holding_canonical : holding.Canonical := canonical_of { shop_canonical with } (by decide) (by decide)

theorem witness_CancelEndsWhatAScreenHas :
    (live.Started ∧ live.Canonical ∧ 64 ≤ (64 : Byte).toNat ∧ live.screen 63 = .idle) ∧
    (queued.Started ∧ queued.Canonical ∧ queued.screen 2 = .queued) ∧
    (searching.Started ∧ searching.Canonical ∧ searching.screen 2 = .active 0) ∧
    (stored.Started ∧ stored.Canonical ∧ stored.screen 2 = .ready 0 ∧ stored.store.holders = []) ∧
    holding.Started ∧ holding.Canonical ∧ holding.screen 20 = .ready 7 ∧ holding.store.holders = 1 :: [] ∧
      (holding.lane 1).record = some { record with screen := 9 } ∧ ({ record with screen := 9 } : RouteRecord).screen ≠ 20 :=
  ⟨⟨live_started, live_canonical, by decide, rfl⟩, ⟨queued_started, queued_canonical, rfl⟩,
    ⟨searching_started, searching_canonical, rfl⟩, ⟨stored_started, stored_canonical, rfl, rfl⟩,
    ⟨⟨rfl, rfl, by decide⟩, rfl⟩, holding_canonical, rfl, rfl, rfl, by decide⟩

theorem witness_CollectingAndExpiryFreeTheSlot :
    (stored.Started ∧ stored.Canonical ∧ 64 ≤ (64 : Byte).toNat ∧ (2 : Byte).toNat < 64 ∧
      stored.screen 2 = .ready 0 ∧ stored.slot 0 = some { record := record, screen := 2, hold := 30 } ∧
      (∀ n, searching.screen 2 ≠ .ready n) ∧
      ({ record with legs := List.replicate 40 (leg none 7 5 9 3 none) } : RouteRecord).legs[39]? =
        some (leg none 7 5 9 3 none)) ∧
    (stored.Running ∧ stored.slot 47 = none ∧ stored.store.holders = []) ∧
    let s : State := { holding with store := { holding.store with slots := [] } }
    s.Running ∧ s.Canonical ∧ s.slot 0 = none ∧ s.store.holders = 1 :: [] ∧
      (s.lane 1).record = some { record with screen := 9 } :=
  ⟨⟨stored_started, stored_canonical, by decide, by decide, rfl, rfl, nofun, rfl⟩, ⟨rfl, rfl, rfl⟩, rfl,
    canonical_of { shop_canonical with } (by decide) (by decide), rfl, rfl, rfl⟩

/-- A search, an ARRIVED request and one without an open entrance; in EGRESS the head. -/
theorem witness_GrantTakesTheChosenEntry :
    let grantable (s : State) (e : QueueEntry) : Prop :=
      s.Running ∧ s.Canonical ∧ (s.lane 0).state = .free ∧ s.site.state = .valid ∧ s.conditions.turn = .idle ∧
        s.dispatcher.queue = [] ++ e :: []
    let asking (destination : Nat) : QueueEntry :=
      { request := { request 2 1 with destination := destination }, egressMark := false }
    let waits (e : QueueEntry) (gates : Table Closure) : State :=
      { live with dispatcher := { screens := [(2, .queued)], queue := [e] }, conditions := { live.conditions with gates := gates } }
    (grantable queued (entry 2 1) ∧ queued.egress.mode = .normal ∧ queued.targetSet context ≠ [] ∧
      ∀ x ∈ queued.targetSet context, x.1 ≠ context.origin) ∧
    (grantable (waits (asking 2) []) (asking 2) ∧
      (waits (asking 2) []).targetSet ((waits (asking 2) []).contextOf (asking 2).request) = [] ++ (0, none) :: []) ∧
    (grantable (waits (asking 1) [(6, .closed)]) (asking 1) ∧
      (waits (asking 1) [(6, .closed)]).targetSet ((waits (asking 1) [(6, .closed)]).contextOf (asking 1).request) = []) ∧
    (live.dispatcher.queue = [] ∧ editing.site.state ≠ .valid ∧ (turning live).conditions.turn ≠ .idle) :=
  ⟨⟨⟨rfl, queued_canonical, rfl, rfl, rfl, rfl⟩, rfl, by decide, by decide⟩,
    ⟨⟨rfl, canonical_of { shop_canonical with } (by decide) (by decide), rfl, rfl, rfl, rfl⟩, rfl⟩,
    ⟨⟨rfl, canonical_of { shop_canonical with } (by decide) (by decide), rfl, rfl, rfl, rfl⟩, rfl⟩, rfl, nofun, nofun⟩

theorem witness_TargetsAreFormedFromTheEntry :
    ({ context with mode := .egress } : SearchContext).mode = .egress ∧ context.mode = .normal ∧ context.kind = .direct ∧
      ({ context with kind := .group, ref := 1 } : SearchContext).kind = .group ∧
      (live.group 1).selection = .firstOpen ∧ (live.group 0).selection = .nearest := ⟨rfl, rfl, rfl, rfl, rfl, rfl⟩

theorem shop_searches : searching.SearchesSite context := ⟨by decide +kernel, by decide, by decide⟩

theorem witness_RecordCompleteStoresTheRecord :
    searching.Running ∧ searching.Canonical ∧ (searching.lane (0 : Fin 4)).state = .searching ∧
      (searching.lane (0 : Fin 4)).request = some (request 2 1) ∧ (searching.lane (0 : Fin 4)).context = some context ∧
      searching.screen (request 2 1).screen = .active 0 ∧ (searching.lane (3 : Fin 4)).state ≠ .searching ∧
      (searching.search (searching.lane (0 : Fin 4)) context).2 = some (2, 400) ∧
      (searching.lane (0 : Fin 4)).targets = [] ++ (2, none) :: [] ∧
      (searching.search { searchingLane with targets := [(9, none)] } context).2 = none ∧ searching.SearchesSite context :=
  ⟨rfl, searching_canonical, rfl, rfl, rfl, rfl, nofun, by decide +kernel, rfl, by decide +kernel, shop_searches⟩

theorem searching_only {l : Nat} {ctx : SearchContext} (h : (searching.lane l).context = some ctx) : ctx = context := by
  have : searching.lane l = if 0 = l then searchingLane else Lane.cleared := rfl
  rw [this] at h
  split at h
  · injection h with h; exact h.symm
  · cases h

theorem searching_addsUp : searching.RecordsAddUp where
  slots n h hs := by cases hs
  lanes l r hr := by
    have : searching.lane l = if 0 = l then searchingLane else Lane.cleared := rfl
    rw [this] at hr
    split at hr <;> cases hr

def stepping (s : State) (c : Instr) : State := { s with pending := [c] }

theorem witness_SearchFindsTheLeastTime :
    searching.SearchesSite context ∧ Table.wf .unseen searchingLane.labels = true ∧
      (searching.search searchingLane context).2 = some (2, 400) ∧
      (searching.search searchingLane context).1.trimmed = false ∧
      (searching.search { searchingLane with targets := [(9, none)] } context).2 = none ∧
      (searching.search { searchingLane with targets := [(9, none)] } context).1.trimmed = false :=
  ⟨shop_searches, rfl, by decide +kernel, by decide +kernel, by decide +kernel, by decide +kernel⟩

theorem witness_TraversalsArePricedByTheRules :
    profile0.inRange = true ∧ factors.inRange = true ∧ (walk 420).inRange = true ∧
      price .normal profile0 factors (walk 420) (quiet none (some .busy)) true = some 486 ∧ (walk 420).cls = .walk ∧
      (escalator 6).inRange = true ∧ price .normal profile0 factors (escalator 6) (quiet (some .runAB) none) true = some 300 ∧
      price .normal profile0 factors (escalator 6) (quiet (some .stopped) none) true = some 127 ∧
      profile1.inRange = true ∧ travelator.inRange = true ∧
      price .normal profile1 factors travelator (quiet (some .runAB) (some .crowded)) true = some 751 ∧
      (lift 4).inRange = true ∧ price .normal profile1 factors (lift 4) (quiet none none) true = some 650 ∧
      price .normal profile1 factors { walk 12 with cls := .door } (quiet none none) true = some 34 ∧
      (live.edge 0).channel = some 0 ∧ (live.edge 1).channel = none ∧ 1 < (live.node 1).adjacencyCount ∧
      (live.edge 1).a ≠ (live.edge 1).b ∧ 1 = (live.edge 1).a ∧ 2 = (live.edge 1).b := by decide

/-- Chapter 4.9: the second traversal merges, the third does not; and lists of 40 and of 43 legs. -/
theorem witness_LegsFollowTheRoute :
    let one := hop 20 true 10 11 120 156
    let two := hop 22 true 11 12 60 78
    let three := hop 24 false 12 13 150 195
    let merged := leg (some 0) 2 234 180 12 (some 305)
    ((fountain.ownLegs (some 2) ([one] ++ [two])).getLast? = some (leg (some 0) 2 78 60 12 (some 305)) ∧
      fountain.condense 2 [one] = [] ++ [leg (some 0) 2 156 120 11 none] ∧
      (leg (some 0) 2 156 120 11 none).landmark = (fountain.node two.fromNode).landmark ∧
      (leg (some 0) 2 78 60 12 (some 305)).turn = some 0 ∧ (fountain.node two.fromNode).landmark = none) ∧
    ((fountain.ownLegs (some 2) ([one, two] ++ [three])).getLast? = some (leg (some 0) 2 195 150 13 none) ∧
      fountain.condense 2 [one, two] = [] ++ [merged] ∧ merged.landmark = (fountain.node three.fromNode).landmark ∧
      (fountain.node three.fromNode).landmark ≠ none) ∧
    (List.replicate 40 merged).length ≤ 40 ∧ 40 < (List.replicate 43 merged).length ∧
      (List.replicate 43 merged).drop 39 = merged :: List.replicate 3 merged := by decide

def polling (phase : PollPhase) (current : Nat) (rest : List Nat) (samples : List (Nat × Option Nat)) : State :=
  { live with flow := { live.flow with
    cycle := some { current := current, phase := phase, rest := rest, samples := samples } } }

/-- No polled channel, two, a poll being sent, and a good and a missed sample, mid-cycle and last. -/
theorem witness_PollCyclesTakeEveryChannel :
    (editing.Running ∧ editing.flow.timer = none) ∧
    (live.Running ∧ live.flow.timer = some 10 ∧ live.flow.cycle = none ∧ (live.channel 0).state ≠ .off ∧
      ∀ d, d < 0 → (live.channel d).state = .off) ∧
    ((polling .sending 0 [1] []).flow.timer = some 10 ∧ (polling .sending 0 [1] []).flow.cycle ≠ none) ∧
    (∀ c, c < 64 → (({ live with flow := { live.flow with channels := [] } } : State).channel c).state = .off) ∧
    (polling .sending 0 [1] []).flow.cycle = some { current := 0, phase := .sending, rest := [1], samples := [] } ∧
    (polling .listening 0 [1] []).flow.cycle = some { current := 0, phase := .listening, rest := [1], samples := [] } ∧
    (let s := polling .listening 1 [] [(0, some 1023)]
     s.Running ∧ s.Canonical ∧ s.flow.cycle = some { current := 1, phase := .listening, rest := [], samples := [(0, some 1023)] } ∧
      ((0x5B + 1 + 0xFF + 0x03 + 0xA2) % 256 = 0 ∧ 0xFF + 256 * 0x03 ≤ 1023) ∧
      (([(0, some 1023)] ++ [(1, some 1023)] : List (Nat × Option Nat)).map Prod.fst).Nodup ∧
      (s.channelConfig 0).role = .reference ∧ (s.channelConfig 1).role = .follower ∧
      (s.channelConfig (s.channelConfig 1).reference).role = .reference) :=
  ⟨⟨rfl, rfl⟩, ⟨rfl, rfl, rfl, nofun, fun d h => absurd h (Nat.not_lt_zero d)⟩, ⟨rfl, nofun⟩,
    fun _ _ => rfl, rfl, rfl, rfl,
    canonical_of { shop_canonical with } (by decide) (by decide), rfl, by decide, by decide, rfl, rfl, rfl⟩

/-- A channel in each state, missed samples below, at and past the stale limit, and each level of the eight steps. -/
theorem witness_SamplesAreProcessedByTheEightSteps :
    let ch := tracking .busy 560 322 460 1 2 40 0
    channel14.inRange = true ∧ ({ ch with state := .seeding } : Channel).state = .seeding ∧
      ({ ch with state := .stale } : Channel).state = .stale ∧ ch.state = .tracking ∧ ch.level = .busy ∧
      (tracking .clear 320 320 320 0 0 20 0).level = .clear ∧ (tracking .crowded 890 322 726 0 0 60 0).level = .crowded ∧
      ({ ch with missed := 3 } : Channel).missed = channel14.staleLimit ∧ ch.missed + 1 < channel14.staleLimit ∧
      ({ ch with missed := 2 } : Channel).missed + 1 = channel14.staleLimit ∧
      (processSample channel14 (tracking .busy 622 322 628 0 2 40 0) (some 40) 0).reseeded = true := by decide

theorem searching_screen (i : Nat) : searching.screen i = if 2 = i then .active 0 else .idle := rfl
theorem searching_laneOf (l : Nat) : searching.lane l = if 0 = l then searchingLane else Lane.cleared := rfl

theorem searching_outstanding : searching.Outstanding where
  numbers i h := by
    rw [searching_screen] at h; split at h
    · omega
    · exact absurd rfl h
  entries := by decide
  queued i := by
    rw [searching_screen]
    constructor
    · intro h; split at h <;> cases h
    · rintro ⟨e, he, _⟩; cases he
  active i l := by
    rw [searching_screen, searching_laneOf]
    constructor
    · intro h
      split at h
      · cases h; exact ⟨by decide, nofun, request 2 1, rfl, by assumption⟩
      · cases h
    · rintro ⟨_, hs, r, hr, rfl⟩
      split at hr
      · next h => subst h; cases hr; rfl
      · cases hr
  ready i n := by
    rw [searching_screen]
    constructor
    · intro h; split at h <;> cases h
    · rintro ⟨_, h, hs, _⟩; cases hs
  own n h _ hs := by cases hs
  taken l _ := by
    rw [searching_laneOf]; split
    · exact ⟨fun _ => rfl, fun _ => nofun⟩
    · exact ⟨fun h => absurd rfl h, nofun⟩
  context l _ h := by
    by_cases hl : 0 = l
    · subst hl; rfl
    · rw [searching_laneOf, if_neg hl] at h; cases h
  records l _ := by
    rw [searching_laneOf]; split
    · exact ⟨nofun, nofun⟩
    · exact ⟨nofun, nofun⟩
  recordScreens l r q _ hr _ := by
    rw [searching_laneOf] at hr; split at hr <;> cases hr
  holders l := by
    rw [searching_laneOf]
    constructor
    · intro h; cases h
    · rintro ⟨_, h⟩; split at h <;> cases h
  order := by decide
  full h := absurd rfl h

/-- A drill begins under a search, ends, and is refused its end while the level is ASSERTED. -/
theorem witness_DrillAndResumeHandTheWorkBack :
    let drill (asserted : Bool) : State := { searching with
      egress := { asserted := asserted, measuring := false, mode := .egress, cause := some .drill } }
    (searching.Started ∧ searching.Canonical ∧ searching.Outstanding ∧ searching.dispatcher.queue.length ≤ 32 ∧
      searching.egress.mode = .normal ∧ searching.site.state = .valid ∧ searching.handed = [request 2 1]) ∧
    ((drill false).Started ∧ (drill false).Canonical ∧ (drill false).Outstanding ∧ (drill false).egress.mode = .egress ∧
      (drill false).egress.asserted = false ∧ (drill true).egress.asserted = true) ∧
    (draining.Started ∧ draining.Canonical ∧ draining.Outstanding ∧ draining.site.state = .draining) ∧
    let s : State := { searching with site := { shop with state := .editing } }
    s.Started ∧ s.Canonical ∧ s.Outstanding ∧ s.site.state ≠ .valid ∧ s.site.state ≠ .draining :=
  ⟨⟨searching_started, searching_canonical, searching_outstanding, by decide, rfl, rfl, rfl⟩,
    ⟨⟨⟨rfl, rfl, by decide⟩, rfl⟩, canonical_of { shop_canonical with } (by decide) (by decide),
      { searching_outstanding with }, rfl, rfl, rfl⟩,
    ⟨⟨⟨rfl, rfl, by decide⟩, rfl⟩, canonical_of { shop_canonical with } (by decide) (by decide),
      { searching_outstanding with }, rfl⟩,
    ⟨⟨rfl, rfl, by decide⟩, rfl⟩, canonical_of { shop_canonical with } (by decide) (by decide),
    { searching_outstanding with }, nofun, nofun⟩

theorem witness_AlarmFollowsTheFilteredLevel :
    let alarm (s : State) (asserted measuring : Bool) (mode : Mode) : State :=
      { s with egress := { asserted := asserted, measuring := measuring, mode := mode, cause := none } }
    (live.Running ∧ live.egress.measuring = false) ∧
    (let s := alarm searching false true .normal
     s.Running ∧ s.egress.measuring = true ∧ s.egress.asserted = false ∧ s.egress.mode = .normal ∧ s.Canonical ∧
      s.Outstanding ∧ s.dispatcher.queue.length ≤ 32) ∧
    (alarm live false true .egress).egress.mode = .egress ∧
    ((alarm live true true .egress).egress.asserted = true ∧ (alarm live true true .egress).egress.mode = .egress) ∧
    (alarm live true true .normal).egress.mode = .normal :=
  ⟨⟨rfl, rfl⟩, ⟨rfl, rfl, rfl, rfl, canonical_of { shop_canonical with } (by decide) (by decide),
    { searching_outstanding with }, by decide⟩, rfl, ⟨rfl, rfl⟩, rfl⟩

/-- Every listed record and the cleared one decide those at every index. -/
theorem get_all {α : Type} {cleared : α} {p : α → Prop} (hc : p cleared) :
    ∀ {t : Table α}, (∀ x ∈ t, p x.2) → ∀ i, p (Table.get cleared t i)
  | [], _, _ => hc
  | x :: rest, h, i => by
    rw [Table.get_cons]
    split
    · exact h x List.mem_cons_self
    · exact get_all hc (fun y hy => h y (List.mem_cons_of_mem _ hy)) i

theorem shop_inRange : ({ ready with site := shop } : State).RecordsInRange
  | .header, _ => (by decide : Record.inRange (.header shop.header) = true)
  | .nodes, i => get_all (p := fun x => Record.inRange (.node x) = true) (t := shop.nodes) (by decide) (by decide) i
  | .edges, i => get_all (p := fun x => Record.inRange (.edge x) = true) (t := shop.edges) (by decide) (by decide) i
  | .adjacency, i =>
    get_all (p := fun x => Record.inRange (.adjacency x) = true) (t := shop.adjacency) (by decide) (by decide) i
  | .groups, i => get_all (p := fun x => Record.inRange (.group x) = true) (t := shop.groups) (by decide) (by decide) i
  | .members, i => get_all (p := fun x => Record.inRange (.member x) = true) (t := shop.members) (by decide) (by decide) i
  | .directory, i =>
    get_all (p := fun x => Record.inRange (.directory x) = true) (t := shop.directory) (by decide) (by decide) i
  | .gates, i => get_all (p := fun x => Record.inRange (.gate x) = true) (t := shop.gates) (by decide) (by decide) i
  | .profiles, i =>
    get_all (p := fun x => Record.inRange (.profile x) = true) (t := shop.profiles) (by decide) (by decide) i
  | .screens, i => get_all (p := fun x => Record.inRange (.screen x) = true) (t := shop.screens) (by decide) (by decide) i
  | .channels, i =>
    get_all (p := fun x => Record.inRange (.channel x) = true) (t := shop.channels) (by decide) (by decide) i
  | .schedule, i =>
    get_all (p := fun x => Record.inRange (.schedule x) = true) (t := shop.schedule) (by decide) (by decide) i

theorem searching_inRange : searching.RecordsInRange := fun t i => by
  have := shop_inRange t i
  cases t <;> exact this

/-- The dump and its checks at the boundaries of the sector and of the flash; a dump of 3328 bytes in each state. -/
theorem witness_DumpsEraseThenProgramTheImage :
    let dumping (state : TransferState) (offset : Nat) : State := { live with transfer := { TransferUnit.cleared with
      state := state, operation := some .dump, address := some 4096, imageLength := some 5000, offset := offset } }
    (live.Started ∧ live.transfer.state = .idle ∧ live.site.state = .valid ∧ 4095 % 4096 ≠ 0 ∧ 16773120 % 4096 = 0 ∧
      live.site.header.imageLength ≤ 4096 ∧ 4294967295 < 4294967296 ∧ editing.site.state ≠ .valid) ∧
    searching.RecordsInRange ∧
    ((dumping .erase 0).Running ∧ (dumping .erase 0).transfer.address = some 4096 ∧
      (dumping .erase 0).transfer.imageLength = some 5000 ∧ (dumping .erase 0).transfer.operation = some .dump ∧
      (dumping .readyWait 0).transfer.state = .readyWait ∧ 0 + 4096 < 5000 ∧ 5000 ≤ 4096 + 4096 ∧ 256 < 5000 ∧
      (dumping .program 4608).transfer.state = .program ∧ 4608 ≠ 0 ∧ 4608 + 256 < 5000 ∧ 5000 ≤ 4864 + 256) ∧
    let s : State := { live with transfer := loadingUnit }
    s.Running ∧ s.transfer.address = some 16777184 ∧ s.transfer.operation = some .load ∧ s.transfer.state = .readyWait ∧
      s.transfer.offset = 0 :=
  ⟨⟨live_started, rfl, rfl, by decide, by decide, by decide, by decide, nofun⟩, searching_inRange,
    ⟨rfl, rfl, rfl, rfl, rfl, by decide, by decide, by decide, rfl, by decide, by decide, by decide⟩, rfl, rfl, rfl, rfl, rfl⟩

/-- The header of an image with no counted record: 3200 bytes; and a site with no table. -/
def emptyHeader : List Byte :=
  [0x48, 0x50, 1, 0] ++ List.replicate 16 0 ++ [24, 40, 20, 0, 0x80, 0x0C, 0, 0, 0, 0, 0, 0]

theorem witness_LoadsJudgeTheHeaderAndTheRecords :
    let header (state : TransferState) (address : Nat) (position : Option (TableId × Nat)) (expected : Word16) : State :=
      { editing with
        site := { shop with state := .loading }
        transfer := { TransferUnit.cleared with
          state := state, operation := some .load, address := some address, position := position, expected := expected } }
    ((header .readHeader 0 none 0).Running ∧ (header .readHeader 0 none 0).transfer.state = .readHeader ∧
      (header .readHeader 0 none 0).transfer.operation = some .load ∧
      (header .readHeader 0 none 0).transfer.address = some 0 ∧ emptyHeader.length = 32) ∧
    (byteAt emptyHeader 0 = 0x48 ∧ byteAt emptyHeader 1 = 0x50 ∧ byteAt emptyHeader 2 = 1 ∧
      (headerOf emptyHeader).inRange = true ∧ longAt emptyHeader 24 = 3200 ∧
      (headerOf emptyHeader).imageLength = 3200) ∧
    (16777216 < 16774017 + 3200 ∧ 16774016 + 3200 ≤ 16777216) ∧
    (byteAt (emptyHeader.set 0 0xFF) 0 ≠ 0x48 ∧ byteAt (emptyHeader.set 2 2) 2 ≠ 1 ∧
      (headerOf (emptyHeader.set 20 15)).inRange = false ∧
      longAt (emptyHeader.set 24 0x81) 24 ≠ (headerOf (emptyHeader.set 24 0x81)).imageLength) ∧
    ((header .readTables 0 (some (.gates, 62)) 0).transfer.position = some (.gates, 62) ∧
      ([1, 0, 0, 0] : List Byte).length = TableId.gates.recordBytes ∧ Record.ofBytes .gates [2, 0, 0, 0] = none ∧
      Record.ofBytes .gates [1, 0, 0, 0] = some (.gate .closed) ∧ 62 + 1 < shop.header.recordsOf .gates) ∧
    (let last := (Record.schedule (live.scheduleEntry 2)).bytes
     last.length = TableId.schedule.recordBytes ∧ Record.ofBytes .schedule last = some (.schedule (live.scheduleEntry 2)) ∧
      shop.header.recordsOf .schedule ≤ 2 + 1 ∧
      BitVec.ofNat 16 ((last.map BitVec.toNat).sum) ≠ 0 ∧
      (0 : Word16) + BitVec.ofNat 16 ((last.map BitVec.toNat).sum) =
        (header .readTables 0 (some (.schedule, 2)) (BitVec.ofNat 16 ((last.map BitVec.toNat).sum))).transfer.expected ∧
      (shop.setRecord 2 (.schedule (live.scheduleEntry 2))).firstFailure = none) ∧
    (¬ (header .readTables 0 (some (.schedule, 2)) 0).Searching ∧
      ((Header.cleared.nextRecord .channels 63) = none ∧ shop.header.nextRecord .channels 63 = some (.schedule, 0) ∧
        { shop.header with groupCount := 0, memberCount := 0 }.nextRecord .adjacency 3 = some (.directory, 0))) := by
  refine ⟨⟨rfl, rfl, rfl, rfl, by decide⟩, by decide +kernel, by decide, by decide +kernel, by decide +kernel,
    by decide +kernel, (by rintro ⟨l, _, h⟩; cases h), by decide⟩

theorem searching_bounded : searching.ListsBounded ∧ searching.link.Bounded ∧ searching.link.parameters.InRange := by
  refine ⟨⟨by decide, by decide, by decide, by decide, by decide, by decide, by decide, ?_⟩,
    ⟨by decide, by decide, nofun, fun _ => rfl, by decide, nofun, nofun, fun _ => ⟨rfl, rfl⟩, fun h => absurd rfl h, nofun,
      nofun, nofun, nofun, fun h => absurd rfl h⟩, ⟨by decide, by decide, by decide, by decide⟩⟩
  intro l r h
  rw [searching_laneOf] at h
  split at h
  · cases h; decide
  · cases h

theorem searching_flow : searching.flow.InRange where
  channels i := by
    refine get_all (p := Channel.InRange) (t := searching.flow.channels) ?_ ?_ i
    · exact ⟨by decide, by decide, by decide, by decide, nofun, by decide, by decide, by decide⟩
    · intro x hx
      have hx : x ∈ live.flow.channels := hx
      simp only [live, List.mem_cons, List.not_mem_nil, or_false] at hx
      rcases hx with rfl | rfl
      · exact ⟨by decide, by decide, by decide, by decide, fun n h => by cases h; decide, by decide, by decide, by decide⟩
      · exact ⟨by decide, by decide, by decide, by decide, nofun, by decide, by decide, by decide⟩
  samples cycle i n h := by cases h

theorem searching_counts : searching.CountsFollowSettings := by
  intro _ i
  have hd : (searching.channel i).debounce = 0 ∧ (searching.channel i).plateau = 0 ∧ (searching.channel i).missed = 0 :=
    get_all (p := fun c => c.debounce = 0 ∧ c.plateau = 0 ∧ c.missed = 0) (t := searching.flow.channels)
      (by decide) (by decide) i
  have hc : 0 < (searching.channelConfig i).debounce :=
    get_all (p := fun c => 0 < c.debounce) (t := shop.channels) (by decide) (by decide) i
  exact ⟨hd.1 ▸ hc, .inl hd.2.1, hd.2.2 ▸ Nat.zero_le _⟩

theorem searching_consistent : searching.Consistent where
  second := by decide
  day := by decide
  unset _ := ⟨rfl, rfl⟩
  alarm := nofun
  cause := ⟨nofun, nofun⟩
  drain := ⟨nofun, nofun⟩
  turnTimer := ⟨fun _ => .inl rfl, fun _ => rfl⟩
  sampleTimer := ⟨fun _ => rfl, fun _ => rfl⟩
  cycle := nofun
  idle := ⟨nofun, fun h => absurd rfl h⟩
  loads := nofun
  loading := nofun
  dumps := nofun
  reading := by rintro (h | h | h) <;> cases h
  writing := by rintro (h | h) <;> cases h
  searching _ := .inl rfl

theorem searching_current : searching.SearchesCurrent := by
  intro l ctx _ _ h
  rw [searching_only h]
  exact ⟨rfl, rfl, rfl⟩

theorem searching_validated : searching.SiteValidated where
  tables _ := ⟨shop_searches.validated, shop_searches.counts⟩
  waiting := nofun
  origins l ctx _ _ h := by rw [searching_only h]; exact shop_searches.origin

theorem witness_RecordsAddUpIsKept :
    let s := stepping searching (.recordComplete 0)
    s.RecordsAddUp ∧ s.Canonical ∧
      (∀ l ctx, l < 4 → (s.lane l).state = .searching → (s.lane l).context = some ctx → s.SearchesSite ctx) ∧
      step s = .next (after (.recordComplete 0) searching) ∧ s.RecordsInRange ∧ s.Consistent ∧ s.SiteValidated ∧
      (s.lane 0).state = .searching ∧ (s.lane 0).context = some context := by
  refine ⟨{ searching_addsUp with }, { searching_canonical with }, ?_, rfl, searching_inRange,
    { searching_consistent with }, { searching_validated with }, rfl, rfl⟩
  intro l ctx _ _ h
  have := searching_only h
  subst this
  exact { shop_searches with }

theorem witness_TablesStayCanonicalAndInRange :
    let s := stepping searching (.recordComplete 0)
    s.Canonical ∧ s.RecordsInRange ∧ step s = .next (after (.recordComplete 0) searching) :=
  ⟨{ searching_canonical with }, searching_inRange, rfl⟩

theorem witness_QueuesAndValuesStayBounded :
    let s := stepping searching .sampleTimerExpiry
    s.Canonical ∧ s.RecordsInRange ∧ s.Consistent ∧ s.ListsBounded ∧ s.link.Bounded ∧ s.link.parameters.InRange ∧
      s.flow.InRange ∧ s.CountsFollowSettings ∧ step s = .next (after .sampleTimerExpiry searching) :=
  ⟨{ searching_canonical with }, searching_inRange, { searching_consistent with }, { searching_bounded.1 with },
    searching_bounded.2.1, searching_bounded.2.2, searching_flow, searching_counts, rfl⟩

theorem witness_BlocksStayConsistent :
    let s := stepping searching (.siteOpen [])
    s.Canonical ∧ s.Consistent ∧ step s = .next (after (.siteOpen []) searching) :=
  ⟨{ searching_canonical with }, { searching_consistent with }, rfl⟩

theorem witness_EveryRequestIsAccountedFor :
    let s := stepping searching (.egressEnter [])
    s.Canonical ∧ s.Outstanding ∧ step s = .next (after (.egressEnter []) searching) :=
  ⟨{ searching_canonical with }, { searching_outstanding with }, rfl⟩

theorem witness_SearchesRunUnderOneEpoch :
    let s := stepping searching (.turnNow [])
    s.Canonical ∧ s.Consistent ∧ s.Outstanding ∧ s.SearchesCurrent ∧ step s = .next (after (.turnNow []) searching) :=
  ⟨{ searching_canonical with }, { searching_consistent with }, { searching_outstanding with }, searching_current, rfl⟩

end Sys2Proof.Tests
end

section
/-! SUPPORT. The graph of a validated site as its records give it (R20), and the order of the frontier heap (R45). -/

namespace Sys2Proof.Machine

/-! ### The validated graph (R20) -/

/-- R20: every check of every record that belongs to a validated site passes. -/
theorem SiteStore.check_of_validated {s : SiteStore} (h : s.firstFailure = none) {t : TableId}
    (ht : t ∈ TableId.imageOrder) {i : Nat} (hi : i < s.header.recordsOf t)
    {check : CheckCode × (SiteStore → Nat → Bool)} (hc : check ∈ t.checks) : check.2 s i = true := by
  have table : s.tableFailure t = none := List.findSome?_eq_none_iff.mp h t ht
  have records : (List.range (s.header.recordsOf t)).findSome? (s.recordFailure t) = none := by
    unfold SiteStore.tableFailure at table
    split at table
    · cases table
    · assumption
  have record : s.recordFailure t i = none := List.findSome?_eq_none_iff.mp records i (List.mem_range.mpr hi)
  simpa using List.find?_eq_none.mp (Option.map_eq_none_iff.mp record) check hc

/-- N1: the adjacency slice of a node of the site lies below the adjacency count. -/
theorem State.slice_le {s : State} (h : s.site.firstFailure = none) {u : Nat} (hu : u < s.site.header.nodeCount) :
    (s.node u).adjacencyStart + (s.node u).adjacencyCount ≤ s.site.header.adjacencyCount := by
  have : checkN1 s.site u = true :=
    SiteStore.check_of_validated h (t := .nodes) (check := (.N1, checkN1)) (by decide) hu (by simp [TableId.checks])
  exact of_decide_eq_true this

/-- A1: an adjacency entry of the site names an edge of the site. -/
theorem State.adjacent_lt {s : State} (h : s.site.firstFailure = none) {j : Nat}
    (hj : j < s.site.header.adjacencyCount) : s.adjacent j < s.site.header.edgeCount := by
  have : checkA1 s.site j = true :=
    SiteStore.check_of_validated h (t := .adjacency) (check := (.A1, checkA1)) (by decide) hj (by simp [TableId.checks])
  exact of_decide_eq_true this

/-- E1: an edge of the site joins two different nodes of the site. -/
theorem State.edge_ends {s : State} (h : s.site.firstFailure = none) {e : Nat} (he : e < s.site.header.edgeCount) :
    (s.edge e).a < s.site.header.nodeCount ∧ (s.edge e).b < s.site.header.nodeCount ∧ (s.edge e).a ≠ (s.edge e).b := by
  have : checkE1 s.site e = true :=
    SiteStore.check_of_validated h (t := .edges) (check := (.E1, checkE1)) (by decide) he (by simp [TableId.checks])
  simp only [checkE1, Bool.and_eq_true, decide_eq_true_eq, and_assoc] at this
  exact this

/-- A2: a node of the site whose slice holds an adjacency entry is an endpoint of the edge the entry names. -/
theorem State.slice_endpoint {s : State} (h : s.site.firstFailure = none) {u j : Nat}
    (hu : u < s.site.header.nodeCount) (hj : j < s.site.header.adjacencyCount) (hs : (s.node u).slice j = true) :
    u = (s.edge (s.adjacent j)).a ∨ u = (s.edge (s.adjacent j)).b := by
  have check : checkA2 s.site j = true :=
    SiteStore.check_of_validated h (t := .adjacency) (check := (.A2, checkA2)) (by decide) hj (by simp [TableId.checks])
  have mem : u ∈ s.site.slicesWith j := List.mem_filter.mpr ⟨List.mem_range.mpr hu, hs⟩
  unfold checkA2 at check
  split at check
  next n hn =>
    rw [hn, List.mem_singleton] at mem
    simp only [Bool.or_eq_true, decide_eq_true_eq] at check
    exact mem ▸ check
  next => cases check

/-- An edge in the adjacency list of a node of the site has that node as an endpoint and another node as the other. -/
theorem State.edgesOf_ends {s : State} (h : s.site.firstFailure = none) {u e : Nat}
    (hu : u < s.site.header.nodeCount) (he : e ∈ s.edgesOf u) :
    (s.edge e).a < s.site.header.nodeCount ∧ (s.edge e).b < s.site.header.nodeCount ∧ (s.edge e).a ≠ (s.edge e).b ∧
      (u = (s.edge e).a ∨ u = (s.edge e).b) := by
  obtain ⟨i, hi, rfl⟩ := List.mem_map.mp he
  have hslice := State.slice_le h hu
  have hcount := List.mem_range.mp hi
  have hj : (s.node u).adjacencyStart + i < s.site.header.adjacencyCount := by omega
  obtain ⟨ha, hb, hne⟩ := State.edge_ends h (State.adjacent_lt h hj)
  exact ⟨ha, hb, hne, State.slice_endpoint h hu hj (by simpa [Node.slice] using hcount)⟩

/-- Leaving a node of a validated site leads to a node of the site. -/
theorem State.leave_lt {s : State} (h : s.site.firstFailure = none) {u e : Nat} (hu : u < s.site.header.nodeCount)
    (he : e ∈ s.edgesOf u) : ((s.edge e).leave u).1 < s.site.header.nodeCount := by
  obtain ⟨ha, hb, -, -⟩ := State.edgesOf_ends h hu he
  unfold Edge.leave
  split
  · exact hb
  · exact ha

/-- R33: a usable traversal costs at least one decisecond. -/
theorem State.one_le_priceUnder {s : State} {ctx : SearchContext} {e cost : Nat} {ab : Bool}
    (h : s.priceUnder ctx e ab = some cost) : 1 ≤ cost := by
  unfold State.priceUnder price at h
  split at h
  · injection h with h
    exact h ▸ clampCost_pos _
  · cases h

/-! ### The frontier heap (R45) -/

theorem heapLess_iff (x y : Nat × Nat) : heapLess x y = true ↔ x.1 < y.1 ∨ (x.1 = y.1 ∧ x.2 < y.2) := by
  simp [heapLess]

/-- R45: the entries stand in strictly ascending order. -/
def HeapOrdered (heap : List (Nat × Nat)) : Prop := heap.Pairwise fun x y => heapLess x y = true

@[simp] theorem mem_heapInsert (x y : Nat × Nat) (heap : List (Nat × Nat)) :
    y ∈ heapInsert x heap ↔ y = x ∨ y ∈ heap := by
  induction heap with
  | nil => simp [heapInsert]
  | cons z rest ih =>
    unfold heapInsert
    split
    · simp
    · simp only [List.mem_cons, ih]; tauto

theorem HeapOrdered.nodup {heap : List (Nat × Nat)} (h : HeapOrdered heap) : heap.Nodup :=
  h.imp fun {x y} hxy heq => by rw [heq, heapLess_iff] at hxy; omega

theorem HeapOrdered.insert {heap : List (Nat × Nat)} (h : HeapOrdered heap) {x : Nat × Nat} (hx : x ∉ heap) :
    HeapOrdered (heapInsert x heap) := by
  induction heap with
  | nil => simp [heapInsert, HeapOrdered]
  | cons z rest ih =>
    obtain ⟨least, ordered⟩ := List.pairwise_cons.mp h
    unfold heapInsert
    split
    next hxz =>
      refine List.pairwise_cons.mpr ⟨fun y hy => ?_, h⟩
      obtain rfl | hy := List.mem_cons.mp hy
      · exact hxz
      · have := least y hy
        rw [heapLess_iff] at *
        omega
    next hxz =>
      refine List.pairwise_cons.mpr ⟨fun y hy => ?_, ih ordered fun hr => hx (List.mem_cons_of_mem _ hr)⟩
      obtain rfl | hy := (mem_heapInsert _ _ _).mp hy
      · have hne : y ≠ z := fun heq => hx (heq ▸ List.mem_cons_self)
        have : ¬ (y.1 = z.1 ∧ y.2 = z.2) := fun heq => hne (Prod.ext heq.1 heq.2)
        rw [heapLess_iff] at *
        omega
      · exact least y hy

/-- The least entry of a heap has the least label. -/
theorem HeapOrdered.le_of_mem {label u : Nat} {rest : List (Nat × Nat)} (h : HeapOrdered ((label, u) :: rest))
    {x : Nat × Nat} (hx : x ∈ rest) : label ≤ x.1 := by
  have := (List.pairwise_cons.mp h).1 x hx
  rw [heapLess_iff] at this
  omega

theorem HeapOrdered.mem_dropLast {heap : List (Nat × Nat)} (h : HeapOrdered heap) {greatest : Nat × Nat}
    (hg : heap.getLast? = some greatest) (x : Nat × Nat) : x ∈ heap.dropLast ↔ x ∈ heap ∧ x ≠ greatest := by
  obtain ⟨init, rfl⟩ := List.getLast?_eq_some_iff.mp hg
  have nodup := h.nodup
  rw [List.nodup_append] at nodup
  have : ∀ y ∈ init, y ≠ greatest := fun y hy => nodup.2.2 y hy greatest (by simp)
  simp only [List.dropLast_concat, List.mem_append, List.mem_singleton]
  grind

end Sys2Proof.Machine
end

section
/-! SUPPORT. The label table and the frontier heap: their common invariant, and what an offer of a label can leave of
them (R44, R45, R53 to R55). -/

namespace Sys2Proof.Machine

/-! ### Filtered tables -/

theorem Table.wfFrom_filter {α : Type} [DecidableEq α] (cleared : α) (p : Nat × α → Bool) {least : Nat} {t : Table α}
    (h : Table.wfFrom cleared least t = true) : Table.wfFrom cleared least (t.filter p) = true := by
  induction t generalizing least with
  | nil => rfl
  | cons x t ih =>
    obtain ⟨k, v⟩ := x
    simp only [Table.wfFrom, Bool.and_eq_true, decide_eq_true_eq] at h
    obtain ⟨⟨hk, hv⟩, ht⟩ := h
    rw [List.filter_cons]
    split
    · simp [Table.wfFrom, hk, hv, ih ht]
    · exact Table.wfFrom_mono cleared (ih ht) (by omega)

theorem Table.get_filter_of_not {α : Type} (cleared : α) (p : Nat × α → Bool) {t : Table α} {i : Nat}
    (h : ∀ v, p (i, v) = false) : Table.get cleared (t.filter p) i = cleared := by
  induction t with
  | nil => rfl
  | cons x t ih =>
    obtain ⟨k, v⟩ := x
    rw [List.filter_cons]
    split
    next hp =>
      rw [Table.get_cons, if_neg (fun hk : k = i => by simp [hk, h v] at hp), ih]
    next => exact ih

/-- Writes at different indices of a canonical table do not meet. -/
theorem Table.set_comm {α : Type} [DecidableEq α] (cleared : α) {t : Table α} (h : Table.wf cleared t = true)
    {i j : Nat} (hij : i ≠ j) (v w : α) :
    Table.set cleared (Table.set cleared t i v) j w = Table.set cleared (Table.set cleared t j w) i v := by
  have hi := Table.wf_set cleared h i v
  have hj := Table.wf_set cleared h j w
  refine Table.eq_of_get cleared (Table.wf_set _ hi _ _) (Table.wf_set _ hj _ _) fun k => ?_
  by_cases hkj : k = j
  · subst hkj
    rw [Table.get_set_self _ hi, Table.get_set_of_ne _ _ _ hij.symm, Table.get_set_self _ h]
  · rw [Table.get_set_of_ne _ _ _ hkj]
    by_cases hki : k = i
    · subst hki
      rw [Table.get_set_self _ hj, Table.get_set_self _ h]
    · rw [Table.get_set_of_ne _ _ _ hki, Table.get_set_of_ne _ _ _ hki, Table.get_set_of_ne _ _ _ hkj]

/-! ### Label entries (R44) -/

/-- The label and the predecessor edge of a node that has been reached; none for UNSEEN (R44). -/
def LabelEntry.held : LabelEntry → Option (Nat × Option Nat)
  | .unseen => none
  | .frontier label pred => some (label, pred)
  | .settled label pred => some (label, pred)

theorem LabelEntry.held_eq_some_iff (entry : LabelEntry) (label : Nat) (pred : Option Nat) :
    entry.held = some (label, pred) ↔ entry = .frontier label pred ∨ entry = .settled label pred := by
  cases entry <;> simp [LabelEntry.held]

theorem LabelEntry.pred_of_held {entry : LabelEntry} {label : Nat} {pred : Option Nat}
    (h : entry.held = some (label, pred)) : entry.pred = pred := by
  obtain rfl | rfl := (entry.held_eq_some_iff label pred).mp h <;> rfl

/-- The node has been reached with a label that is not above the bound. -/
def Frontier.Within (f : Frontier) (node bound : Nat) : Prop :=
  ∃ label pred, (f.label node).held = some (label, pred) ∧ label ≤ bound

/-! ### The frontier's own invariant, and its changes (R45, R53 to R55) -/

/-- R45: the label table is canonical, the heap is in order, and it holds exactly the FRONTIER nodes of the site, each
with its label. `count` is the node count: entries at and above it belong to no node (R44). -/
structure Frontier.HeapMatches (f : Frontier) (count : Nat) : Prop where
  canonical : Table.wf .unseen f.labels = true
  order : HeapOrdered f.heap
  mem : ∀ label node, (label, node) ∈ f.heap ↔ node < count ∧ ∃ pred, f.label node = .frontier label pred

/-- R55: the greatest entry is given up, and its node returns to UNSEEN. -/
def Frontier.evict (f : Frontier) (greatest : Nat × Nat) : Frontier :=
  { labels := Table.set .unseen f.labels greatest.2 .unseen, heap := f.heap.dropLast, trimmed := true }

/-- R53: the least entry (label, u) leaves the heap, and its node becomes SETTLED. -/
def Frontier.settleLeast (f : Frontier) (label u : Nat) (rest : List (Nat × Nat)) : Frontier :=
  { f with labels := Table.set .unseen f.labels u (.settled label (f.label u).pred), heap := rest }

theorem Frontier.lower_label (f : Frontier) (node label : Nat) (pred : Option Nat) (m : Nat) :
    (f.lower node label pred).label m = if m = node then .frontier label pred else f.label m := by
  split
  next h => subst h; exact Table.get_set_self_of_ne _ _ _ nofun
  next h => exact Table.get_set_of_ne _ _ _ h

theorem Frontier.settleLeast_label (f : Frontier) (label u : Nat) (rest : List (Nat × Nat)) (m : Nat) :
    (f.settleLeast label u rest).label m = if m = u then .settled label (f.label u).pred else f.label m := by
  split
  next h => subst h; exact Table.get_set_self_of_ne _ _ _ nofun
  next h => exact Table.get_set_of_ne _ _ _ h

section

variable {f : Frontier} {count : Nat}

theorem Frontier.HeapMatches.evict_label (h : f.HeapMatches count) (greatest : Nat × Nat) (m : Nat) :
    (f.evict greatest).label m = if m = greatest.2 then .unseen else f.label m := by
  split
  next hm => subst hm; exact Table.get_set_self _ h.canonical _ _
  next hm => exact Table.get_set_of_ne _ _ _ hm

/-- An UNSEEN node has no entry in the heap. -/
theorem Frontier.HeapMatches.ne_of_unseen (h : f.HeapMatches count) {node : Nat} (hn : f.label node = .unseen)
    {x : Nat × Nat} (hx : x ∈ f.heap) : x.2 ≠ node := by
  obtain ⟨-, pred, hp⟩ := (h.mem x.1 x.2).mp hx
  intro heq
  rw [heq, hn] at hp
  cases hp

/-- The node of the heap's least entry is FRONTIER with the entry's label. -/
theorem Frontier.HeapMatches.least_frontier (h : f.HeapMatches count) {label u : Nat} {rest : List (Nat × Nat)}
    (hh : f.heap = (label, u) :: rest) : u < count ∧ ∃ pred, f.label u = .frontier label pred :=
  (h.mem label u).mp (hh ▸ List.mem_cons_self)

/-- R45: two entries of the heap never share a node. -/
theorem Frontier.HeapMatches.eq_of_node (h : f.HeapMatches count) {x y : Nat × Nat} (hx : x ∈ f.heap)
    (hy : y ∈ f.heap) (hxy : x.2 = y.2) : x = y := by
  obtain ⟨-, p, hp⟩ := (h.mem x.1 x.2).mp hx
  obtain ⟨-, q, hq⟩ := (h.mem y.1 y.2).mp hy
  rw [hxy, hq] at hp
  injection hp with hl
  exact Prod.ext hl.symm hxy

theorem Frontier.HeapMatches.trim (h : f.HeapMatches count) :
    ({ f with trimmed := true } : Frontier).HeapMatches count :=
  ⟨h.canonical, h.order, h.mem⟩

theorem Frontier.HeapMatches.evict (h : f.HeapMatches count) {greatest : Nat × Nat}
    (hg : f.heap.getLast? = some greatest) : (f.evict greatest).HeapMatches count where
  canonical := Table.wf_set _ h.canonical _ _
  order := h.order.sublist (List.dropLast_sublist _)
  mem label node := by
    rw [h.evict_label]
    change (label, node) ∈ f.heap.dropLast ↔ _
    rw [h.order.mem_dropLast hg]
    split
    next hn =>
      have : (label, node) ∈ f.heap → (label, node) = greatest := fun hm =>
        h.eq_of_node hm (List.mem_of_getLast? hg) hn
      simpa using this
    next hn =>
      have : (label, node) ≠ greatest := fun heq => hn (congrArg Prod.snd heq)
      simp [this, h.mem]

theorem Frontier.HeapMatches.lower (h : f.HeapMatches count) {node : Nat} (hn : node < count)
    (label : Nat) (pred : Option Nat) : (f.lower node label pred).HeapMatches count where
  canonical := Table.wf_set _ h.canonical _ _
  order := HeapOrdered.insert (h.order.filter _) (by simp)
  mem l m := by
    rw [Frontier.lower_label]
    change (l, m) ∈ heapInsert (label, node) (f.heap.filter fun x => x.2 ≠ node) ↔ _
    rw [mem_heapInsert, List.mem_filter]
    split
    next hm => subst hm; simp [hn, eq_comm]
    next hm => simp [hm, h.mem]

theorem Frontier.HeapMatches.settleLeast (h : f.HeapMatches count) {label u : Nat} {rest : List (Nat × Nat)}
    (hh : f.heap = (label, u) :: rest) : (f.settleLeast label u rest).HeapMatches count where
  canonical := Table.wf_set _ h.canonical _ _
  order := (List.pairwise_cons.mp (hh ▸ h.order)).2
  mem l m := by
    rw [Frontier.settleLeast_label]
    change (l, m) ∈ rest ↔ _
    have head : (label, u) ∉ rest := (List.nodup_cons.mp (hh ▸ h.order.nodup)).1
    split
    next hm =>
      subst hm
      have : (l, m) ∉ rest := fun hr => head <| by
        rwa [h.eq_of_node (x := (label, m)) (y := (l, m)) (by simp [hh]) (by simp [hh, hr]) rfl]
      simp [this]
    next hm => rw [← h.mem, hh, List.mem_cons]; simp [hm]

end

/-! ### Offering a label (R54, R55) -/

/-- What the offer of a label to a node through an edge can leave: the frontier as it was, for a SETTLED node or one
whose label is not above the offer; the TRIMMED flag alone, for a node that a full heap has no place for; the node placed
with the offered label; or the node placed after the greatest entry has been given up. -/
inductive Frontier.Offered (f : Frontier) (node label edge : Nat) : Frontier → Prop where
  | settled {held : Nat} {pred : Option Nat} : f.label node = .settled held pred → f.Offered node label edge f
  | notLess {held : Nat} {pred : Option Nat} : f.label node = .frontier held pred → held ≤ label →
      f.Offered node label edge f
  | refused : f.label node = .unseen → f.Offered node label edge { f with trimmed := true }
  | placed : (∀ held pred, f.label node ≠ .settled held pred) →
      (∀ held pred, f.label node = .frontier held pred → label < held) →
      f.Offered node label edge (f.lower node label (some edge))
  | traded {greatest : Nat × Nat} : f.label node = .unseen → f.heap.getLast? = some greatest →
      heapLess (label, node) greatest = true →
      f.Offered node label edge ((f.evict greatest).lower node label (some edge))

section

variable {f : Frontier} {count : Nat}

/-- For a node without a heap entry, lowering is the marking and the insertion alone. -/
theorem Frontier.lower_of_not_mem {node : Nat} (hn : ∀ x ∈ f.heap, x.2 ≠ node) (label : Nat) (pred : Option Nat) :
    f.lower node label pred =
      { f with labels := f.mark node label pred, heap := heapInsert (label, node) f.heap } := by
  have : (f.heap.filter fun x => decide (x.2 ≠ node)) = f.heap := List.filter_eq_self.mpr (by simpa using hn)
  rw [Frontier.lower, this]

/-- R55: giving up the greatest entry and then placing the new node is what a full heap does for a smaller new entry. -/
theorem Frontier.HeapMatches.evict_lower (h : f.HeapMatches count) {node : Nat} (hn : f.label node = .unseen)
    {greatest : Nat × Nat} (hg : f.heap.getLast? = some greatest) (label : Nat) (pred : Option Nat) :
    (f.evict greatest).lower node label pred =
      { labels := Table.set .unseen (f.mark node label pred) greatest.2 .unseen
        heap := heapInsert (label, node) f.heap.dropLast
        trimmed := true } := by
  have other : greatest.2 ≠ node := h.ne_of_unseen hn (List.mem_of_getLast? hg)
  rw [Frontier.lower_of_not_mem fun x hx => h.ne_of_unseen hn (List.dropLast_subset _ hx)]
  exact congrArg (Frontier.mk · _ _) (Table.set_comm _ h.canonical other _ _)

/-- R54 steps 1 and 3 to 6, R55: an offer does what its case says. -/
theorem Frontier.HeapMatches.offered (h : f.HeapMatches count) (node label edge : Nat) :
    f.Offered node label edge (f.offer node label edge) := by
  unfold Frontier.offer
  split
  next held pred hs => exact .settled hs
  next hu =>
    have fresh : ∀ x ∈ f.heap, x.2 ≠ node := fun x => h.ne_of_unseen hu
    unfold Frontier.insert
    split
    · rw [← Frontier.lower_of_not_mem fresh]
      exact .placed (fun _ _ hs => by simp [hu] at hs) (fun _ _ hf => by simp [hu] at hf)
    next full =>
      split
      next empty => simp [List.getLast?_eq_none_iff.mp empty] at full
      next greatest hg =>
        split
        next less => rw [← h.evict_lower hu hg]; exact .traded hu hg less
        · exact .refused hu
  next held pred hf =>
    split
    next less =>
      refine .placed (fun _ _ hs => by simp [hf] at hs) fun held' pred' hf' => ?_
      rw [hf] at hf'
      injection hf' with heq
      exact heq ▸ less
    next less => exact .notLess hf (by omega)

/-! What the cases of an offer have in common. -/

variable {g : Frontier} {node label edge : Nat}

theorem Frontier.Offered.heapMatches (ho : f.Offered node label edge g) (h : f.HeapMatches count) (hn : node < count) :
    g.HeapMatches count := by
  cases ho with
  | settled => exact h
  | notLess => exact h
  | refused => exact h.trim
  | placed => exact h.lower hn _ _
  | traded _ hg => exact (h.evict hg).lower hn _ _

theorem Frontier.lower_settled_iff (hs : ∀ held pred, f.label node ≠ .settled held pred) (pred : Option Nat)
    (m held : Nat) (p : Option Nat) :
    (f.lower node label pred).label m = .settled held p ↔ f.label m = .settled held p := by
  rw [Frontier.lower_label]
  split
  next hm => subst hm; simp [hs]
  next => rfl

/-- The node of the greatest entry is FRONTIER, so giving it up settles no node and unsettles none. -/
theorem Frontier.HeapMatches.evict_settled_iff (h : f.HeapMatches count) {greatest : Nat × Nat}
    (hg : f.heap.getLast? = some greatest) (m held : Nat) (p : Option Nat) :
    (f.evict greatest).label m = .settled held p ↔ f.label m = .settled held p := by
  obtain ⟨-, pred, hp⟩ := (h.mem greatest.1 greatest.2).mp (List.mem_of_getLast? hg)
  rw [h.evict_label]
  split
  next hm => simp [hm, hp]
  next => rfl

/-- R53: an offer settles no node and unsettles none. -/
theorem Frontier.Offered.settled_iff (ho : f.Offered node label edge g) (h : f.HeapMatches count)
    (m held : Nat) (p : Option Nat) : g.label m = .settled held p ↔ f.label m = .settled held p := by
  cases ho with
  | settled => rfl
  | notLess => rfl
  | refused => rfl
  | placed hs => exact Frontier.lower_settled_iff hs _ _ _ _
  | traded hu hg =>
    rw [Frontier.lower_settled_iff fun held p hs => ?_, h.evict_settled_iff hg]
    rw [h.evict_settled_iff hg, hu] at hs
    cases hs

theorem Frontier.frontier_of_lower {m held : Nat} {p q : Option Nat}
    (hf : (f.lower node label q).label m = .frontier held p) :
    f.label m = .frontier held p ∨ (m = node ∧ held = label ∧ p = q) := by
  rw [Frontier.lower_label] at hf
  split at hf
  next hm => injection hf with hl hp; exact .inr ⟨hm, hl.symm, hp.symm⟩
  next => exact .inl hf

/-- A FRONTIER entry after an offer stood before it, or is the offered one. -/
theorem Frontier.Offered.frontier_before (ho : f.Offered node label edge g) (h : f.HeapMatches count) {m held : Nat}
    {p : Option Nat} (hf : g.label m = .frontier held p) :
    f.label m = .frontier held p ∨ (m = node ∧ held = label ∧ p = some edge) := by
  cases ho with
  | settled => exact .inl hf
  | notLess => exact .inl hf
  | refused => exact .inl hf
  | placed => exact Frontier.frontier_of_lower hf
  | traded =>
    refine (Frontier.frontier_of_lower hf).imp_left fun kept => ?_
    rw [h.evict_label] at kept
    split at kept
    · cases kept
    · exact kept

/-- A node that is reached after an offer held the same before it, or holds what was offered. -/
theorem Frontier.Offered.held_before (ho : f.Offered node label edge g) (h : f.HeapMatches count) {m held : Nat}
    {p : Option Nat} (hr : (g.label m).held = some (held, p)) :
    (f.label m).held = some (held, p) ∨ (m = node ∧ held = label ∧ p = some edge) := by
  simp only [LabelEntry.held_eq_some_iff] at hr ⊢
  obtain hf | hf := hr
  · exact (ho.frontier_before h hf).imp_left .inl
  · exact .inl (.inr ((ho.settled_iff h m held p).mp hf))

/-- A FRONTIER node of a label less than the offered one keeps it: it is neither lowered nor the greatest. -/
theorem Frontier.Offered.frontier_kept (ho : f.Offered node label edge g) (h : f.HeapMatches count) {m held : Nat}
    {p : Option Nat} (hm : m < count) (hf : f.label m = .frontier held p) (hl : held < label) :
    g.label m = .frontier held p := by
  cases ho with
  | settled => exact hf
  | notLess => exact hf
  | refused => exact hf
  | placed _ hlow =>
    rw [Frontier.lower_label, if_neg, hf]
    rintro rfl
    have := hlow held p hf
    omega
  | @traded greatest hu hg less =>
    have other : m ≠ node := by rintro rfl; simp [hu] at hf
    rw [Frontier.lower_label, if_neg other, h.evict_label, if_neg, hf]
    intro hmg
    have : (held, m) = greatest := h.eq_of_node ((h.mem _ _).mpr ⟨hm, p, hf⟩) (List.mem_of_getLast? hg) hmg
    rw [heapLess_iff, ← this] at less
    omega

/-- A search that was not trimmed was not trimmed before. -/
theorem Frontier.Offered.untrimmed (ho : f.Offered node label edge g) (ht : g.trimmed = false) : f.trimmed = false := by
  cases ho with
  | settled => exact ht
  | notLess => exact ht
  | refused => cases ht
  | placed => exact ht
  | traded => cases ht

/-- An offer that trims nothing raises no label and unsees no node. -/
theorem Frontier.Offered.within (ho : f.Offered node label edge g) (ht : g.trimmed = false) {m bound : Nat}
    (hw : f.Within m bound) : g.Within m bound := by
  cases ho with
  | settled => exact hw
  | notLess => exact hw
  | refused => cases ht
  | placed hs hl =>
    obtain ⟨held, p, hp, hb⟩ := hw
    by_cases hm : m = node
    · subst hm
      obtain hf | hf := (LabelEntry.held_eq_some_iff _ _ _).mp hp
      · have := hl held p hf
        exact ⟨label, some edge, by simp [Frontier.lower_label, LabelEntry.held], by omega⟩
      · exact absurd hf (hs _ _)
    · exact ⟨held, p, by rwa [Frontier.lower_label, if_neg hm], hb⟩
  | traded => cases ht

/-- R54: after an offer that trims nothing, the node has a label not above the offered one, when no label above that one
was final. -/
theorem Frontier.Offered.within_self (ho : f.Offered node label edge g) (ht : g.trimmed = false)
    (hs : ∀ held p, f.label node = .settled held p → held ≤ label) : g.Within node label := by
  cases ho with
  | @settled held p hf => exact ⟨held, p, by simp [hf, LabelEntry.held], hs _ _ hf⟩
  | @notLess held p hf hl => exact ⟨held, p, by simp [hf, LabelEntry.held], hl⟩
  | refused => cases ht
  | placed => exact ⟨label, some edge, by simp [Frontier.lower_label, LabelEntry.held], le_rfl⟩
  | traded => cases ht

end

end Sys2Proof.Machine
end

section
/-! SUPPORT. The search: what its labels mean, what a round keeps, and before which round it ends (R52 to R57). -/

namespace Sys2Proof.Machine

/-! ### What a search keeps (R44, R53, R54) -/

/-- R54: a node has its label by this edge from the SETTLED node u: the label of u plus a usable traversal's cost. -/
structure State.LedBy (s : State) (ctx : SearchContext) (f : Frontier) (node label e u held cost : Nat) : Prop where
  site : u < s.site.header.nodeCount
  settled : ∃ pred, f.label u = .settled held pred
  listed : e ∈ s.edgesOf u
  leads : ((s.edge e).leave u).1 = node
  price : s.priceUnder ctx e ((s.edge e).leave u).2 = some cost
  sum : label = held + cost

/-- What the labels of a search mean (R44, R45, R54): the origin has label 0 and no predecessor edge, every other node
that has been reached has its label by its predecessor edge from a SETTLED node, and no SETTLED label is above a FRONTIER
one. -/
structure State.Labelled (s : State) (ctx : SearchContext) (f : Frontier) : Prop where
  heap : f.HeapMatches s.site.header.nodeCount
  origin : (f.label ctx.origin).held = some (0, none)
  reached : ∀ node label pred, node < s.site.header.nodeCount → node ≠ ctx.origin →
    (f.label node).held = some (label, pred) →
    ∃ e u held cost, pred = some e ∧ s.LedBy ctx f node label e u held cost
  least : ∀ u held pred label node, u < s.site.header.nodeCount → f.label u = .settled held pred →
    (label, node) ∈ f.heap → held ≤ label

section

variable {s : State} {ctx : SearchContext} {f g : Frontier}

/-- A predecessor stays one while the SETTLED nodes stay SETTLED (R56). -/
theorem State.LedBy.mono {node label e u held cost : Nat} (h : s.LedBy ctx f node label e u held cost)
    (hs : ∀ m held pred, f.label m = .settled held pred → g.label m = .settled held pred) :
    s.LedBy ctx g node label e u held cost :=
  { h with settled := h.settled.imp fun _ => hs _ _ _ }

/-- R33: a label is above that of the predecessor. -/
theorem State.LedBy.lt {node label e u held cost : Nat} (h : s.LedBy ctx f node label e u held cost) :
    held < label := by
  have := State.one_le_priceUnder h.price
  have := h.sum
  omega

theorem Frontier.settleLeast_held (f : Frontier) {label u : Nat} {p : Option Nat}
    (hu : f.label u = .frontier label p) (rest : List (Nat × Nat)) (m : Nat) :
    ((f.settleLeast label u rest).label m).held = (f.label m).held := by
  rw [Frontier.settleLeast_label]
  split
  next hm => subst hm; simp [hu, LabelEntry.held, LabelEntry.pred]
  next => rfl

/-- Settling a FRONTIER node unsettles none. -/
theorem Frontier.settleLeast_settled {label u m held : Nat} {p pred : Option Nat}
    (hu : f.label u = .frontier label p) (rest : List (Nat × Nat)) (hm : f.label m = .settled held pred) :
    (f.settleLeast label u rest).label m = .settled held pred := by
  rw [Frontier.settleLeast_label, if_neg, hm]
  rintro rfl
  simp [hu] at hm

/-- A SETTLED node after the least entry is settled is the entry's, or was SETTLED before. -/
theorem Frontier.settled_of_settleLeast {label u m held : Nat} {rest : List (Nat × Nat)} {pred : Option Nat}
    (hm : (f.settleLeast label u rest).label m = .settled held pred) :
    (m = u ∧ held = label) ∨ f.label m = .settled held pred := by
  rw [Frontier.settleLeast_label] at hm
  split at hm
  next hmu => injection hm with hl; exact .inl ⟨hmu, hl.symm⟩
  next => exact .inr hm

theorem State.Labelled.settleLeast (h : s.Labelled ctx f) {label u : Nat} {rest : List (Nat × Nat)}
    (hh : f.heap = (label, u) :: rest) : s.Labelled ctx (f.settleLeast label u rest) := by
  obtain ⟨-, p, hp⟩ := h.heap.least_frontier hh
  have held := Frontier.settleLeast_held f hp rest
  refine ⟨h.heap.settleLeast hh, (held _).trans h.origin, fun node label' pred hn ho hr => ?_,
    fun m held' pred label' node hm hs hr => ?_⟩
  · obtain ⟨e, v, held', cost, he, led⟩ := h.reached node label' pred hn ho ((held node).symm.trans hr)
    exact ⟨e, v, held', cost, he, led.mono fun m _ _ => Frontier.settleLeast_settled hp rest⟩
  · change (label', node) ∈ rest at hr
    obtain ⟨-, rfl⟩ | hs := Frontier.settled_of_settleLeast hs
    · exact (hh ▸ h.heap.order).le_of_mem hr
    · exact h.least m held' pred label' node hm hs (by simp [hh, hr])

/-- R54: an offer of a label that no SETTLED label is above, made by a traversal from a SETTLED node. -/
theorem State.Labelled.offered (site : s.SearchesSite ctx) (h : s.Labelled ctx f) {node label e u held cost : Nat}
    (hn : node < s.site.header.nodeCount) (led : s.LedBy ctx f node label e u held cost)
    (hl : ∀ m held pred, m < s.site.header.nodeCount → f.label m = .settled held pred → held ≤ label)
    (ho : f.Offered node label e g) : s.Labelled ctx g := by
  have settled := ho.settled_iff h.heap
  have matched := ho.heapMatches h.heap hn
  have mono := fun m held pred => (settled m held pred).mpr
  refine ⟨matched, ?_, fun m label' pred hm hmo hr => ?_, fun m held' pred label' n hm hs hr => ?_⟩
  · rw [LabelEntry.held_eq_some_iff, settled]
    refine ((LabelEntry.held_eq_some_iff _ _ _).mp h.origin).imp_left fun hf => ?_
    exact ho.frontier_kept h.heap site.origin hf (Nat.zero_lt_of_lt led.lt)
  · obtain hf | ⟨rfl, rfl, rfl⟩ := ho.held_before h.heap hr
    · obtain ⟨e', v, held', cost', he, led'⟩ := h.reached m label' pred hm hmo hf
      exact ⟨e', v, held', cost', he, led'.mono mono⟩
    · exact ⟨e, u, held, cost, rfl, led.mono mono⟩
  · have hs' := (settled m held' pred).mp hs
    obtain ⟨hn', q, hq⟩ := (matched.mem label' n).mp hr
    obtain hf | ⟨-, rfl, -⟩ := ho.frontier_before h.heap hq
    · exact h.least m held' pred label' n hm hs' ((h.heap.mem label' n).mpr ⟨hn', q, hf⟩)
    · exact hl m held' pred hm hs'

/-! ### The adjacency entries of a settled node (R54) -/

/-- The lane has settled node u with this label and takes its adjacency entries: no SETTLED label is above this one. -/
structure State.Examining (s : State) (ctx : SearchContext) (u label : Nat) (f : Frontier) : Prop where
  labelled : s.Labelled ctx f
  site : u < s.site.header.nodeCount
  settled : ∃ pred, f.label u = .settled label pred
  greatest : ∀ m held pred, m < s.site.header.nodeCount → f.label m = .settled held pred → held ≤ label

/-- What offers leave of a frontier: the SETTLED nodes with their labels; and, while nothing is trimmed, every bound on
the label of a node. -/
structure Frontier.Extends (f g : Frontier) : Prop where
  settled : ∀ m held pred, g.label m = .settled held pred ↔ f.label m = .settled held pred
  untrimmed : g.trimmed = false → f.trimmed = false
  within : g.trimmed = false → ∀ m bound, f.Within m bound → g.Within m bound

theorem Frontier.Extends.refl (f : Frontier) : f.Extends f := ⟨fun _ _ _ => .rfl, id, fun _ _ _ => id⟩

theorem Frontier.Extends.trans {f' : Frontier} (h : f.Extends f') (h' : f'.Extends g) : f.Extends g where
  settled m held pred := (h'.settled m held pred).trans (h.settled m held pred)
  untrimmed ht := h.untrimmed (h'.untrimmed ht)
  within ht m bound hw := h'.within ht m bound (h.within (h'.untrimmed ht) m bound hw)

theorem Frontier.Offered.extends {node label edge count : Nat} (ho : f.Offered node label edge g)
    (h : f.HeapMatches count) : f.Extends g :=
  ⟨ho.settled_iff h, ho.untrimmed, fun ht _ _ => ho.within ht⟩

/-- Node u, of this label, has passed its label on through an edge: if the traversal is usable, the node it leads to has
a label not above the sum (R54). -/
def State.PassedOn (s : State) (ctx : SearchContext) (f : Frontier) (u label e : Nat) : Prop :=
  ∀ cost, s.priceUnder ctx e ((s.edge e).leave u).2 = some cost → f.Within ((s.edge e).leave u).1 (label + cost)

theorem State.examine_unusable {u label e : Nat} (h : s.priceUnder ctx e ((s.edge e).leave u).2 = none) :
    s.examine ctx u label f e = f := by
  simp only [State.examine, h]

theorem State.examine_usable {u label e cost : Nat} (h : s.priceUnder ctx e ((s.edge e).leave u).2 = some cost) :
    s.examine ctx u label f e = f.offer ((s.edge e).leave u).1 (label + cost) e := by
  simp only [State.examine, h]

/-- R54: one adjacency entry. -/
theorem State.Examining.examine (site : s.SearchesSite ctx) {u label e : Nat} (h : s.Examining ctx u label f)
    (he : e ∈ s.edgesOf u) :
    s.Examining ctx u label (s.examine ctx u label f e) ∧ f.Extends (s.examine ctx u label f e) ∧
      ((s.examine ctx u label f e).trimmed = false → s.PassedOn ctx (s.examine ctx u label f e) u label e) := by
  cases hp : s.priceUnder ctx e ((s.edge e).leave u).2 with
  | none =>
    rw [State.examine_unusable hp]
    exact ⟨h, .refl f, fun _ cost hc => by simp [hp] at hc⟩
  | some cost =>
    rw [State.examine_usable hp]
    have ho := h.labelled.heap.offered ((s.edge e).leave u).1 (label + cost) e
    have ext := ho.extends h.labelled.heap
    have hn := State.leave_lt site.validated h.site he
    have bound : ∀ m held pred, m < s.site.header.nodeCount → f.label m = .settled held pred → held ≤ label + cost :=
      fun m held pred hm hs => Nat.le_add_right_of_le (h.greatest m held pred hm hs)
    have led : s.LedBy ctx f ((s.edge e).leave u).1 (label + cost) e u label cost :=
      ⟨h.site, h.settled, he, rfl, hp, rfl⟩
    refine ⟨⟨h.labelled.offered site hn led bound ho, h.site, ?_, fun m held pred hm hs => ?_⟩, ext,
      fun ht cost' hc => ?_⟩
    · exact h.settled.imp fun _ => (ext.settled _ _ _).mpr
    · exact h.greatest m held pred hm ((ext.settled _ _ _).mp hs)
    · obtain rfl : cost = cost' := Option.some.inj (hp.symm.trans hc)
      exact ho.within_self ht fun held p => bound _ held p hn

/-- R54: adjacency entries taken in order. -/
theorem State.Examining.examineAll (site : s.SearchesSite ctx) {u label : Nat} {edges : List Nat}
    (h : s.Examining ctx u label f) (he : ∀ e ∈ edges, e ∈ s.edgesOf u) :
    s.Examining ctx u label (edges.foldl (s.examine ctx u label) f) ∧
      f.Extends (edges.foldl (s.examine ctx u label) f) ∧
      ((edges.foldl (s.examine ctx u label) f).trimmed = false →
        ∀ e ∈ edges, s.PassedOn ctx (edges.foldl (s.examine ctx u label) f) u label e) := by
  induction edges generalizing f with
  | nil => exact ⟨h, .refl f, fun _ => by simp⟩
  | cons e rest ih =>
    obtain ⟨first, ext, passed⟩ := h.examine site (he e List.mem_cons_self)
    obtain ⟨last, ext', passed'⟩ := ih first fun e' h' => he e' (List.mem_cons_of_mem _ h')
    refine ⟨last, ext.trans ext', fun ht e' h' => ?_⟩
    obtain rfl | h' := List.mem_cons.mp h'
    · exact fun cost hc => ext'.within ht _ _ (passed (ext'.untrimmed ht) cost hc)
    · exact passed' ht e' h'

/-! ### The rounds of a search (R52, R53, R57) -/

/-- Where a search stands before a round: no target is SETTLED, and while nothing is trimmed every SETTLED node has
passed its label on through each of its edges. -/
structure State.Round (s : State) (ctx : SearchContext) (targets : List (Nat × Option Nat)) (f : Frontier) : Prop where
  labelled : s.Labelled ctx f
  noTarget : ∀ u held pred, u < s.site.header.nodeCount → f.label u = .settled held pred → isTarget targets u = false
  passedOn : f.trimmed = false → ∀ u held pred, u < s.site.header.nodeCount → f.label u = .settled held pred →
    ∀ e ∈ s.edgesOf u, s.PassedOn ctx f u held e

/-- The node is not SETTLED. -/
def LabelEntry.unsettled : LabelEntry → Bool
  | .settled _ _ => false
  | _ => true

theorem LabelEntry.unsettled_eq_false_iff (entry : LabelEntry) :
    entry.unsettled = false ↔ ∃ held pred, entry = .settled held pred := by
  cases entry <;> simp [LabelEntry.unsettled]

/-- How many nodes of the site are not SETTLED, a bound on the rounds a search has left (R53). -/
def Frontier.unsettledCount (f : Frontier) (count : Nat) : Nat :=
  ((Finset.range count).filter fun n => (f.label n).unsettled = true).card

theorem Frontier.unsettledCount_le (f : Frontier) (count : Nat) : f.unsettledCount count ≤ count :=
  (Finset.card_filter_le _ _).trans_eq (Finset.card_range count)

/-- When every SETTLED node stays SETTLED and another one becomes so, fewer nodes are left. -/
theorem Frontier.unsettledCount_lt {count u : Nat} (hu : u < count)
    (hs : ∀ m, (f.label m).unsettled = false → (g.label m).unsettled = false)
    (hf : (f.label u).unsettled = true) (hg : (g.label u).unsettled = false) :
    g.unsettledCount count < f.unsettledCount count := by
  refine Finset.card_lt_card (Finset.ssubset_iff_of_subset (fun m hm => ?_) |>.mpr ⟨u, ?_, ?_⟩)
  · rw [Finset.mem_filter] at hm ⊢
    exact ⟨hm.1, by_contra fun h => by simp [hs m (by simpa using h)] at hm⟩
  · simp [hu, hf]
  · simp [hg]

theorem State.settle_empty {targets : List (Nat × Option Nat)} (h : f.heap = []) (fuel : Nat) :
    s.settle ctx targets fuel f = (f, none) := by
  cases fuel with
  | zero => rfl
  | succ => simp only [State.settle, h]

theorem State.settle_target {targets : List (Nat × Option Nat)} {label u : Nat} {rest : List (Nat × Nat)}
    (h : f.heap = (label, u) :: rest) (ht : isTarget targets u = true) (fuel : Nat) :
    s.settle ctx targets (fuel + 1) f = (f.settleLeast label u rest, some (u, label)) := by
  simp only [State.settle, h, ht, if_true]
  rfl

theorem State.settle_next {targets : List (Nat × Option Nat)} {label u : Nat} {rest : List (Nat × Nat)}
    (h : f.heap = (label, u) :: rest) (ht : isTarget targets u = false) (fuel : Nat) :
    s.settle ctx targets (fuel + 1) f = s.settle ctx targets fuel
      ((s.edgesOf u).foldl (s.examine ctx u label) (f.settleLeast label u rest)) := by
  simp only [State.settle, h, ht, Bool.false_eq_true, if_false]
  rfl

/-- R53: the node of the least entry is settled, and no SETTLED label is above its own. -/
theorem State.Labelled.examining (h : s.Labelled ctx f) {label u : Nat} {rest : List (Nat × Nat)}
    (hh : f.heap = (label, u) :: rest) : s.Examining ctx u label (f.settleLeast label u rest) where
  labelled := h.settleLeast hh
  site := (h.heap.least_frontier hh).1
  settled := ⟨(f.label u).pred, by rw [Frontier.settleLeast_label, if_pos rfl]⟩
  greatest m held pred hm hs := by
    obtain ⟨-, rfl⟩ | hs := Frontier.settled_of_settleLeast hs
    · exact le_rfl
    · exact h.least m held pred label u hm hs (hh ▸ List.mem_cons_self)

/-- A round: the least entry is settled, which is no target, and its node's adjacency entries are taken. -/
theorem State.Round.next (site : s.SearchesSite ctx) {targets : List (Nat × Option Nat)} (h : s.Round ctx targets f)
    {label u : Nat} {rest : List (Nat × Nat)} (hh : f.heap = (label, u) :: rest) (ht : isTarget targets u = false)
    (hg : g = (s.edgesOf u).foldl (s.examine ctx u label) (f.settleLeast label u rest)) :
    s.Round ctx targets g ∧ g.unsettledCount s.site.header.nodeCount < f.unsettledCount s.site.header.nodeCount := by
  obtain ⟨hu, p, hp⟩ := h.labelled.heap.least_frontier hh
  have start := h.labelled.examining hh
  obtain ⟨done, ext, passed⟩ := start.examineAll site (edges := s.edgesOf u) fun _ => id
  rw [← hg] at done ext passed
  have before : ∀ m held pred, g.label m = .settled held pred →
      (m = u ∧ held = label) ∨ f.label m = .settled held pred :=
    fun m held pred hs => Frontier.settled_of_settleLeast ((ext.settled m held pred).mp hs)
  refine ⟨⟨done.labelled, fun m held pred hm hs => ?_, fun untrimmed m held pred hm hs e he => ?_⟩,
    Frontier.unsettledCount_lt hu (fun m hm => ?_) (by simp [hp, LabelEntry.unsettled]) ?_⟩
  · obtain ⟨rfl, -⟩ | hs := before m held pred hs
    · exact ht
    · exact h.noTarget m held pred hm hs
  · obtain ⟨rfl, rfl⟩ | hs := before m held pred hs
    · exact passed untrimmed e he
    · intro cost hc
      obtain ⟨l, q, hl, hb⟩ := h.passedOn (ext.untrimmed untrimmed) m held pred hm hs e he cost hc
      exact ext.within untrimmed _ _ ⟨l, q, (Frontier.settleLeast_held f hp rest _).trans hl, hb⟩
  · obtain ⟨held, pred, hs⟩ := (LabelEntry.unsettled_eq_false_iff _).mp hm
    exact (LabelEntry.unsettled_eq_false_iff _).mpr
      ⟨held, pred, (ext.settled _ _ _).mpr (Frontier.settleLeast_settled hp rest hs)⟩
  · obtain ⟨pred, hs⟩ := done.settled
    exact (LabelEntry.unsettled_eq_false_iff _).mpr ⟨label, pred, hs⟩

/-- How a search ends: before a round, with an empty heap (R57) or with a target in the least entry (R53). -/
inductive State.Ended (s : State) (ctx : SearchContext) (targets : List (Nat × Option Nat)) :
    Frontier × Option (Nat × Nat) → Prop where
  | unreachable {f : Frontier} : s.Round ctx targets f → f.heap = [] → State.Ended s ctx targets (f, none)
  | found {f : Frontier} {label u : Nat} {rest : List (Nat × Nat)} : s.Round ctx targets f →
      f.heap = (label, u) :: rest → isTarget targets u = true →
      State.Ended s ctx targets (f.settleLeast label u rest, some (u, label))

/-- R53, R57: with as many rounds as there are nodes left, a search ends. -/
theorem State.settle_ended (site : s.SearchesSite ctx) {targets : List (Nat × Option Nat)} (fuel : Nat)
    (h : s.Round ctx targets f) (hf : f.unsettledCount s.site.header.nodeCount < fuel) :
    s.Ended ctx targets (s.settle ctx targets fuel f) := by
  induction fuel generalizing f with
  | zero => omega
  | succ fuel ih =>
    match hh : f.heap with
    | [] => exact State.settle_empty hh _ ▸ .unreachable h hh
    | (label, u) :: rest =>
      cases ht : isTarget targets u with
      | true => exact State.settle_target hh ht fuel ▸ .found h hh ht
      | false =>
        obtain ⟨next, less⟩ := h.next site hh ht rfl
        exact State.settle_next hh ht fuel ▸ ih next (by omega)

/-- R52: at its start a search holds the origin alone, FRONTIER with label 0. -/
theorem State.startFrontier_label {lane : Lane} {origin node : Nat}
    (hn : node < s.site.header.nodeCount) : (s.startFrontier lane origin).label node =
      if node = origin then .frontier 0 none else .unseen := by
  split
  next h => subst h; exact Table.get_set_self_of_ne _ _ _ nofun
  next h => exact (Table.get_set_of_ne _ _ _ h).trans (Table.get_filter_of_not _ _ fun _ => by simpa using hn)

theorem State.startFrontier_round (site : s.SearchesSite ctx) {lane : Lane} (targets : List (Nat × Option Nat))
    (hl : Table.wf .unseen lane.labels = true) : s.Round ctx targets (s.startFrontier lane ctx.origin) := by
  have label := fun node => State.startFrontier_label (s := s) (lane := lane) (origin := ctx.origin) (node := node)
  have unsettled : ∀ u held pred, u < s.site.header.nodeCount →
      (s.startFrontier lane ctx.origin).label u ≠ .settled held pred := by
    intro u held pred hu
    rw [label u hu]
    split <;> nofun
  refine ⟨⟨⟨Table.wf_set _ (Table.wfFrom_filter _ _ hl) _ _, List.pairwise_singleton _ _, fun l node => ?_⟩, ?_,
    fun node l pred hn ho hr => ?_, fun u held pred _ _ hu hs => absurd hs (unsettled u held pred hu)⟩,
    fun u held pred hu hs => absurd hs (unsettled u held pred hu),
    fun _ u held pred hu hs => absurd hs (unsettled u held pred hu)⟩
  · change (l, node) ∈ [(0, ctx.origin)] ↔ _
    constructor
    · intro h
      obtain ⟨rfl, rfl⟩ := Prod.mk.inj (List.mem_singleton.mp h)
      exact ⟨site.origin, none, by rw [label _ site.origin, if_pos rfl]⟩
    · rintro ⟨hn, pred, hp⟩
      rw [label node hn] at hp
      split at hp
      next ho => injection hp with hl; simp [ho, ← hl]
      next => cases hp
  · rw [label _ site.origin, if_pos rfl]
    rfl
  · rw [label node hn, if_neg ho] at hr
    cases hr

/-- R12: a site has at most 2048 nodes. -/
theorem State.SearchesSite.nodeCount_le (site : s.SearchesSite ctx) : s.site.header.nodeCount ≤ Config.nodes := by
  have counts := site.counts
  simp only [Header.inRange, Bool.and_eq_true, decide_eq_true_eq, and_assoc] at counts
  exact counts.1

/-- R52 to R57: a search on a validated site ends as R53 or R57 says. -/
theorem State.search_ended (site : s.SearchesSite ctx) {lane : Lane} (hl : Table.wf .unseen lane.labels = true) :
    s.Ended ctx lane.targets (s.search lane ctx) := by
  refine State.settle_ended site _ (State.startFrontier_round site lane.targets hl) ?_
  have := site.nodeCount_le
  have := Frontier.unsettledCount_le (s.startFrontier lane ctx.origin) s.site.header.nodeCount
  omega

end

end Sys2Proof.Machine
end

section
/-! SUPPORT. Labels and walks, and the time a search finds (R35, R53, R56, R57). -/

namespace Sys2Proof.Machine

/-! ### Labels and walks (R35, R56) -/

section

variable {s : State} {ctx : SearchContext} {f : Frontier}

/-- R56: a label is the sum of the costs of a walk, trimmed or not. -/
theorem State.Labelled.walk (h : s.Labelled ctx f) {node label : Nat} {pred : Option Nat}
    (hn : node < s.site.header.nodeCount) (hr : (f.label node).held = some (label, pred)) : s.Walk ctx node label := by
  induction label using Nat.strong_induction_on generalizing node pred with
  | _ label ih =>
    by_cases ho : node = ctx.origin
    · subst ho
      obtain ⟨rfl, -⟩ : 0 = label ∧ none = pred := by simpa [h.origin] using hr
      exact .start
    · obtain ⟨e, u, held, cost, -, led⟩ := h.reached node label pred hn ho hr
      obtain ⟨p, hu⟩ := led.settled
      have before := ih held led.lt led.site ((LabelEntry.held_eq_some_iff _ held p).mpr (.inr hu))
      exact led.leads ▸ led.sum ▸ .leave e cost before led.listed led.price

/-- The walk is accounted for: its end is SETTLED with a label not above the walk's time, or an entry of the heap is not
above it. -/
def Frontier.Covers (f : Frontier) (node cost : Nat) : Prop :=
  (∃ held pred, f.label node = .settled held pred ∧ held ≤ cost) ∨ ∃ x ∈ f.heap, x.1 ≤ cost

theorem Frontier.HeapMatches.covers {count node bound : Nat} (h : f.HeapMatches count) (hn : node < count)
    (hw : f.Within node bound) : f.Covers node bound := by
  obtain ⟨label, pred, hr, hb⟩ := hw
  obtain hf | hs := (LabelEntry.held_eq_some_iff _ _ _).mp hr
  · exact .inr ⟨(label, node), (h.mem _ _).mpr ⟨hn, pred, hf⟩, hb⟩
  · exact .inl ⟨label, pred, hs, hb⟩

/-- While nothing is trimmed, every walk from the origin stays on the site and is accounted for. -/
theorem State.Round.covers_walk (site : s.SearchesSite ctx) {targets : List (Nat × Option Nat)}
    (h : s.Round ctx targets f) (untrimmed : f.trimmed = false) {node cost : Nat} (walk : s.Walk ctx node cost) :
    node < s.site.header.nodeCount ∧ f.Covers node cost := by
  induction walk with
  | start => exact ⟨site.origin, h.labelled.heap.covers site.origin ⟨0, none, h.labelled.origin, le_rfl⟩⟩
  | @leave u time e cost _ he hp ih =>
    obtain ⟨hu, covered⟩ := ih
    have hn := State.leave_lt site.validated hu he
    refine ⟨hn, ?_⟩
    obtain ⟨held, pred, hs, hle⟩ | ⟨x, hx, hle⟩ := covered
    · obtain ⟨label, p, hr, hb⟩ := h.passedOn untrimmed u held pred hu hs e he cost hp
      exact h.labelled.heap.covers hn ⟨label, p, hr, by omega⟩
    · exact .inr ⟨x, hx, by omega⟩

/-- While nothing is trimmed, a walk to a target takes no less time than some entry of the heap. -/
theorem State.Round.heap_le_walk (site : s.SearchesSite ctx) {targets : List (Nat × Option Nat)}
    (h : s.Round ctx targets f) (untrimmed : f.trimmed = false) {node cost : Nat} (walk : s.Walk ctx node cost)
    (ht : isTarget targets node = true) : ∃ x ∈ f.heap, x.1 ≤ cost := by
  obtain ⟨hn, ⟨held, pred, hs, -⟩ | entry⟩ := h.covers_walk site untrimmed walk
  · simp [h.noTarget node held pred hn hs] at ht
  · exact entry

theorem isTarget_iff (targets : List (Nat × Option Nat)) (node : Nat) :
    isTarget targets node = true ↔ ∃ k, (node, k) ∈ targets := by
  simp [isTarget]

/-- R53, R56: a search ends at a target, by a walk of the time it gives. -/
theorem State.Ended.found_walk {targets : List (Nat × Option Nat)} {result : Frontier × Option (Nat × Nat)}
    (h : s.Ended ctx targets result) {target label : Nat} (hr : result.2 = some (target, label)) :
    (∃ k, (target, k) ∈ targets) ∧ s.Walk ctx target label := by
  cases h with
  | unreachable => cases hr
  | found round hh ht =>
    obtain ⟨rfl, rfl⟩ := Prod.mk.inj (Option.some.inj hr)
    obtain ⟨hn, pred, hp⟩ := round.labelled.heap.least_frontier hh
    exact ⟨(isTarget_iff _ _).mp ht, round.labelled.walk hn ((LabelEntry.held_eq_some_iff _ _ _).mpr (.inl hp))⟩

/-- R35, R53: when nothing was trimmed, no walk to a target takes less time than the one found. -/
theorem State.Ended.found_least (site : s.SearchesSite ctx) {targets : List (Nat × Option Nat)}
    {result : Frontier × Option (Nat × Nat)} (h : s.Ended ctx targets result) {target label : Nat}
    (hr : result.2 = some (target, label)) (untrimmed : result.1.trimmed = false) {node cost : Nat}
    (ht : isTarget targets node = true) (walk : s.Walk ctx node cost) : label ≤ cost := by
  cases h with
  | unreachable => cases hr
  | found round hh =>
    obtain ⟨rfl, rfl⟩ := Prod.mk.inj (Option.some.inj hr)
    obtain ⟨x, hx, hle⟩ := round.heap_le_walk site untrimmed walk ht
    rw [hh, List.mem_cons] at hx
    obtain rfl | hx := hx
    · exact hle
    · exact ((hh ▸ round.labelled.heap.order).le_of_mem hx).trans hle

/-- R57: when nothing was trimmed and nothing found, no walk reaches a target. -/
theorem State.Ended.no_walk (site : s.SearchesSite ctx) {targets : List (Nat × Option Nat)}
    {result : Frontier × Option (Nat × Nat)} (h : s.Ended ctx targets result) (hr : result.2 = none)
    (untrimmed : result.1.trimmed = false) {node cost : Nat} (ht : isTarget targets node = true) :
    ¬ s.Walk ctx node cost := by
  intro walk
  cases h with
  | unreachable round hh =>
    obtain ⟨x, hx, -⟩ := round.heap_le_walk site untrimmed walk ht
    simp [hh] at hx
  | found => cases hr

end

end Sys2Proof.Machine
end

section

open Sys2Proof.Machine

/-- Settles O46: a search ends before one of its rounds (`State.Ended`), in which every label is the sum of a walk and,
while nothing is trimmed, every walk is accounted for by a SETTLED node or by the heap. -/
theorem searchFindsTheLeastTime : Obligations.SearchFindsTheLeastTime := by
  intro s lane ctx site labels
  have ended := State.search_ended site labels
  refine ⟨fun target label hr => ?_, fun hr untrimmed node cost k hk => ?_⟩
  · obtain ⟨member, walk⟩ := ended.found_walk hr
    exact ⟨member, walk, fun untrimmed node cost k hk =>
      ended.found_least site hr untrimmed ((isTarget_iff _ _).mpr ⟨k, hk⟩)⟩
  · exact ended.no_walk site hr untrimmed ((isTarget_iff _ _).mpr ⟨k, hk⟩)

end

section
/-! SUPPORT. Rebuilding: the predecessor edges behind a settled target are a route (R40, R67). -/

namespace Sys2Proof.Machine

/-! ### Rebuilding (R40, R67) -/

section

variable {s : State} {ctx : SearchContext} {f : Frontier}

/-- R67: the traversal that a predecessor edge stands for is the one by which the node was given its label. -/
theorem State.LedBy.traversalInto (site : s.SearchesSite ctx) {node label e u held cost : Nat}
    (led : s.LedBy ctx f node label e u held cost) :
    let t := s.traversalInto ctx node e
    t.fromNode = u ∧ t.cost = cost ∧ s.priceUnder ctx e t.ab = some cost ∧
      (t.ab = true → t.fromNode = (s.edge e).a ∧ t.toNode = (s.edge e).b) ∧
      (t.ab = false → t.fromNode = (s.edge e).b ∧ t.toNode = (s.edge e).a) := by
  obtain ⟨-, -, hne, ends⟩ := State.edgesOf_ends site.validated led.site led.listed
  have leads := led.leads
  have price := led.price
  simp only [State.traversalInto]
  by_cases hu : (s.edge e).a = u
  · obtain rfl : (s.edge e).b = node := by simpa [Edge.leave, hu] using leads
    have price : s.priceUnder ctx e true = some cost := by simpa [Edge.leave, hu] using price
    simp [hu, price]
  · obtain rfl : (s.edge e).a = node := by simpa [Edge.leave, hu] using leads
    have price : s.priceUnder ctx e false = some cost := by simpa [Edge.leave, hu] using price
    have : u = (s.edge e).b := ends.resolve_left (Ne.symm hu)
    simp [hne.symm, this, price]

/-- R26: a moving edge that runs is of its stored class, and so is every other edge. -/
theorem resolvedClass_of_running (cls : EdgeClass) {motion : Option Motion}
    (h : motion = some .runAB ∨ motion = some .runBA) : resolvedClass .normal cls motion = cls := by
  obtain rfl | rfl := h <;> cases cls <;> rfl

/-- R26: an escalator that does not run is met as stairs, and a travelator as a walk. -/
theorem resolvedClass_of_not_running {mode : Mode} (cls : EdgeClass) {motion : Option Motion}
    (h : ¬ (mode = .normal ∧ (motion = some .runAB ∨ motion = some .runBA))) :
    resolvedClass mode cls motion = match cls with
      | .escalator => .stairs
      | .travelator => .walk
      | cls => cls := by
  cases cls with
  | walk | door | stairs | elevator => rfl
  | escalator | travelator =>
    simp only [resolvedClass]
    split
    · exact absurd ⟨rfl, .inl rfl⟩ h
    · exact absurd ⟨rfl, .inr rfl⟩ h
    · rfl

/-- The route to the origin has no traversals. -/
theorem State.RouteTo.nil : s.RouteTo ctx [] ctx.origin 0 where
  first := by simp
  joined := by simp
  last := by simp
  empty := by simp
  listed := by simp
  ends := by simp
  length := by simp
  resolved := by simp
  cost := by simp
  total := rfl
  count := by simp

/-- R54, R67: a route to a predecessor, followed by the traversal that its label was passed on by. -/
theorem State.RouteTo.concat (site : s.SearchesSite ctx) {route : List Traversal} {node label e u held cost : Nat}
    (h : s.RouteTo ctx route u held) (led : s.LedBy ctx f node label e u held cost) (ho : node ≠ ctx.origin)
    (hc : route.length < 2047) : s.RouteTo ctx (route ++ [s.traversalInto ctx node e]) node label := by
  obtain ⟨hfrom, hcost, hprice, hends⟩ := led.traversalInto site
  have all : ∀ {P : Traversal → Prop}, (∀ t ∈ route, P t) → P (s.traversalInto ctx node e) →
      ∀ t ∈ route ++ [s.traversalInto ctx node e], P t := by
    simp only [List.mem_append, List.mem_singleton]
    rintro P hr ht t (hm | rfl)
    · exact hr t hm
    · exact ht
  refine ⟨fun t ht => ?_, fun i t v hi hj => ?_, fun t ht => ?_, by simp [ho], all h.listed ?_, all h.ends hends,
    all h.length rfl, all h.resolved ⟨fun running => ?_, resolvedClass_of_not_running _⟩,
    all h.cost ?_, ?_, ?_⟩
  · cases route with
    | nil =>
      obtain rfl : s.traversalInto ctx node e = t := by simpa using ht
      exact hfrom.trans (h.empty.mp rfl)
    | cons first rest => exact h.first t ht
  · obtain hlt | heq | hgt := Nat.lt_trichotomy (i + 1) route.length
    · rw [List.getElem?_append_left (by omega)] at hi hj
      exact h.joined i t v hi hj
    · obtain rfl : s.traversalInto ctx node e = v := by simpa [heq] using hj
      rw [List.getElem?_append_left (by omega)] at hi
      refine hfrom.trans (h.last t ?_).symm
      rwa [List.getLast?_eq_getElem?, ← heq, Nat.add_sub_cancel]
    · rw [List.getElem?_eq_none (by simpa using hgt)] at hj
      cases hj
  · obtain rfl : s.traversalInto ctx node e = t := by simpa using ht
    rfl
  · rw [hfrom]
    exact led.listed
  · obtain ⟨normal, motion⟩ := running
    exact (congrArg (resolvedClass · _ _) normal).trans (resolvedClass_of_running _ motion)
  · rw [hcost]
    exact hprice
  · simp [h.total, hcost, led.sum]
  · simpa using hc

/-- The node is SETTLED with a label below the bound. -/
def LabelEntry.settledBelow (bound : Nat) : LabelEntry → Bool
  | .settled held _ => held < bound
  | _ => false

theorem LabelEntry.settledBelow_iff (bound : Nat) (entry : LabelEntry) :
    entry.settledBelow bound = true ↔ ∃ held pred, entry = .settled held pred ∧ held < bound := by
  cases entry <;> simp [LabelEntry.settledBelow]

/-- How many nodes of the site are SETTLED with a label below the bound. -/
def Frontier.countBelow (f : Frontier) (count bound : Nat) : Nat :=
  ((Finset.range count).filter fun n => (f.label n).settledBelow bound = true).card

/-- A node of the site is not counted below its own label. -/
theorem Frontier.countBelow_lt_count {count node label : Nat} {pred : Option Nat} (hn : node < count)
    (hr : (f.label node).held = some (label, pred)) : f.countBelow count label < count := by
  refine (Finset.card_lt_card (Finset.filter_ssubset.mpr ⟨node, Finset.mem_range.mpr hn, ?_⟩)).trans_eq
    (Finset.card_range count)
  rw [LabelEntry.settledBelow_iff]
  rintro ⟨held, p, hs, hl⟩
  obtain ⟨rfl, -⟩ : held = label ∧ p = pred := by simpa [hs, LabelEntry.held] using hr
  omega

/-- A predecessor has fewer nodes below its label: itself is not among them. -/
theorem State.LedBy.countBelow_lt {node label e u held cost : Nat} (led : s.LedBy ctx f node label e u held cost) :
    f.countBelow s.site.header.nodeCount held < f.countBelow s.site.header.nodeCount label := by
  obtain ⟨pred, hu⟩ := led.settled
  have less := led.lt
  refine Finset.card_lt_card (Finset.ssubset_iff_of_subset (fun m => ?_) |>.mpr ⟨u, ?_⟩) <;>
    simp only [Finset.mem_filter, LabelEntry.settledBelow_iff, Finset.mem_range]
  · rintro ⟨hm, l, p, hl, hlt⟩
    exact ⟨hm, l, p, hl, by omega⟩
  · refine ⟨⟨led.site, held, pred, hu, less⟩, ?_⟩
    rintro ⟨-, l, p, hl, hlt⟩
    obtain ⟨rfl, -⟩ : held = l ∧ pred = p := by simpa [hu] using hl
    omega

theorem State.chain_origin {fuel node : Nat} {found : List Traversal} (h : (f.label node).pred = none) :
    s.chain ctx f.labels fuel node found = found := by
  cases fuel with
  | zero => rfl
  | succ =>
    change (Table.get .unseen f.labels node).pred = none at h
    simp only [State.chain, h]

theorem State.chain_pred {fuel node e : Nat} {found : List Traversal} (h : (f.label node).pred = some e) :
    s.chain ctx f.labels (fuel + 1) node found =
      s.chain ctx f.labels fuel (s.traversalInto ctx node e).fromNode (s.traversalInto ctx node e :: found) := by
  change (Table.get .unseen f.labels node).pred = some e at h
  simp only [State.chain, h]

/-- R35, R67: the predecessor edges of a reached node lead back to the origin, through no more nodes than are SETTLED with
a label below its own. -/
theorem State.Labelled.chain (site : s.SearchesSite ctx) (h : s.Labelled ctx f) {fuel node label : Nat}
    {pred : Option Nat} (hn : node < s.site.header.nodeCount) (hr : (f.label node).held = some (label, pred))
    (hf : f.countBelow s.site.header.nodeCount label < fuel) :
    ∃ route, s.RouteTo ctx route node label ∧ route.length ≤ f.countBelow s.site.header.nodeCount label ∧
      ∀ found, s.chain ctx f.labels fuel node found = route ++ found := by
  induction fuel generalizing node label pred with
  | zero => omega
  | succ fuel ih =>
    by_cases ho : node = ctx.origin
    · subst ho
      obtain ⟨rfl, rfl⟩ : 0 = label ∧ none = pred := by simpa [h.origin] using hr
      exact ⟨[], .nil, Nat.zero_le _, fun _ => State.chain_origin (LabelEntry.pred_of_held hr)⟩
    · obtain ⟨e, u, held, cost, rfl, led⟩ := h.reached node label pred hn ho hr
      obtain ⟨p, hu⟩ := led.settled
      have fewer := led.countBelow_lt
      obtain ⟨route, hroute, hlen, hchain⟩ :=
        ih led.site ((LabelEntry.held_eq_some_iff _ held p).mpr (.inr hu)) (by omega)
      have most := (Frontier.countBelow_lt_count hn hr).trans_le site.nodeCount_le
      refine ⟨_, hroute.concat site led ho (by simp only [Config.nodes] at most; omega), by simp; omega,
        fun found => ?_⟩
      rw [State.chain_pred (LabelEntry.pred_of_held hr), (led.traversalInto site).1, hchain]
      simp

/-- R67: the rebuilt route of a reached node. -/
theorem State.Labelled.rebuild (site : s.SearchesSite ctx) (h : s.Labelled ctx f) {node label : Nat}
    {pred : Option Nat} (hn : node < s.site.header.nodeCount) (hr : (f.label node).held = some (label, pred)) :
    s.RouteTo ctx (s.rebuild ctx f.labels node) node label := by
  obtain ⟨route, hroute, -, hchain⟩ :=
    h.chain site hn hr ((Frontier.countBelow_lt_count hn hr).trans_le site.nodeCount_le)
  rw [State.rebuild, hchain, List.append_nil]
  exact hroute

/-- R58, R67: the route of a search that ended at a target. -/
theorem State.Ended.rebuild (site : s.SearchesSite ctx) {targets : List (Nat × Option Nat)}
    {result : Frontier × Option (Nat × Nat)} (h : s.Ended ctx targets result) {target label : Nat}
    (hr : result.2 = some (target, label)) : s.RouteTo ctx (s.rebuild ctx result.1.labels target) target label := by
  cases h with
  | unreachable => cases hr
  | @found f _ _ rest round hh _ =>
    obtain ⟨rfl, rfl⟩ := Prod.mk.inj (Option.some.inj hr)
    obtain ⟨hn, pred, hp⟩ := round.labelled.heap.least_frontier hh
    refine (round.labelled.settleLeast hh).rebuild site hn (pred := pred) ?_
    rw [Frontier.settleLeast_held f hp, hp]
    rfl

end

end Sys2Proof.Machine
end

section
/-! SUPPORT. RECORD_COMPLETE: the slot exchange and the record of a search (R57 to R60). -/

namespace Sys2Proof.Machine

/-! ### What the lanes do not change of a route (R41) -/

section

variable (s : State) (l : Nat) (v : Lane) (ctx : SearchContext)

theorem State.setLane_chain (labels : Table LabelEntry) (fuel node : Nat) (found : List Traversal) :
    (s.setLane l v).chain ctx labels fuel node found = s.chain ctx labels fuel node found := by
  induction fuel generalizing node found with
  | zero => rfl
  | succ fuel ih =>
    unfold State.chain
    split
    · rfl
    · exact ih _ _

@[simp] theorem State.setLane_rebuild (labels : Table LabelEntry) (target : Nat) :
    (s.setLane l v).rebuild ctx labels target = s.rebuild ctx labels target := s.setLane_chain l v ctx labels _ _ _

theorem State.setLane_ownLegs (before : Option Nat) (route : List Traversal) :
    (s.setLane l v).ownLegs before route = s.ownLegs before route := by
  induction route generalizing before with
  | nil => rfl
  | cons t rest ih => exact congrArg (_ :: ·) (ih _)

@[simp] theorem State.setLane_condense (facing : Nat) (route : List Traversal) :
    (s.setLane l v).condense facing route = s.condense facing route := by
  unfold State.condense
  rw [State.setLane_ownLegs]

@[simp] theorem State.setLane_checkLegs (target : Nat) (legs : List Leg) :
    (s.setLane l v).checkLegs target legs = s.checkLegs target legs := rfl

@[simp] theorem State.setLane_foundRecord (lane : Lane) (q : Request) (labels : Table LabelEntry) (target label : Nat) :
    (s.setLane l v).foundRecord lane q ctx labels target label = s.foundRecord lane q ctx labels target label := by
  simp [State.foundRecord]

theorem State.withSearch_foundRecord (f : Frontier) (lane : Lane) (q : Request) (labels : Table LabelEntry)
    (target label : Nat) :
    (s.withSearch l f).foundRecord lane q ctx labels target label = s.foundRecord lane q ctx labels target label :=
  s.setLane_foundRecord l _ ctx lane q labels target label

end

/-! ### The slot exchange (R60, R77) -/

section

variable {s t : State} {l : Nat} {q : Request} {r : RouteRecord}

theorem State.withSearch_storeCanonical (s : State) (h : s.StoreCanonical) (l : Nat) (f : Frontier) :
    (s.withSearch l f).StoreCanonical := { h with lanes := Table.wf_set _ h.lanes _ _ }

/-- R60, R77: a lane asks for a slot, and stores its record or holds it. -/
theorem State.askSlot_completed (h : s.StoreCanonical) (hq : (s.lane l).request = some q)
    (ha : s.screen r.screen = .active l) : s.Completed (s.askSlot l r) l q r where
  stored n hn hf hl := by
    simp only [State.askSlot, State.lowestFreeSlot_eq hn hf hl]
    exact ⟨s.storeRecord_stored h n l r, s.storeRecord_holders n l r, s.storeRecord_link n l r⟩
  held hn := by
    have lane : ((s.askSlot l r).lane l) = { s.lane l with state := .holding, record := some r } := by
      simp only [State.askSlot, State.lowestFreeSlot_eq_none hn]
      exact Table.get_set_self _ h.lanes _ _
    simp only [lane]
    simp only [State.askSlot, State.lowestFreeSlot_eq_none hn]
    exact ⟨trivial, trivial, hq, fun m hm => Table.get_set_of_ne _ _ _ hm, rfl, ha, rfl⟩
  screens i hi := by
    unfold State.askSlot
    split
    · exact s.storeRecord_screens _ l r hi
    · rfl

/-- Asking for a slot writes the screens, the lanes, the store and the notices. -/
theorem State.askSlot_frame (s : State) (l : Nat) (r : RouteRecord) : s.askSlot l r = { s with
    dispatcher := { s.dispatcher with screens := (s.askSlot l r).dispatcher.screens }
    lanes := (s.askSlot l r).lanes, store := (s.askSlot l r).store
    link := { s.link with notices := (s.askSlot l r).link.notices, overrunMark := (s.askSlot l r).link.overrunMark
                          dropped := (s.askSlot l r).link.dropped } } := by
  unfold State.askSlot
  split
  next n _ =>
    obtain ⟨notices, mark, count, h⟩ := s.link.offer_frame (.resultReady r.screen n r.tag r.status)
    have link : (s.storeRecord n l r).link =
        { s.link with notices := notices, overrunMark := mark, dropped := count } := (s.storeRecord_link n l r).trans h
    rw [link]
    exact congrArg (fun k => ({ s.storeRecord n l r with link := k } : State)) link
  next => rfl

theorem State.Stored.of_setLane {n : Nat} {v : Lane} (h : (s.setLane l v).Stored t n l r) : s.Stored t n l r :=
  { h with lanes := fun m hm => (h.lanes m hm).trans (Table.get_set_of_ne _ _ _ hm) }

/-- What the lane itself held before is not part of what a completed record leaves. -/
theorem State.Completed.of_setLane {v : Lane} (h : (s.setLane l v).Completed t l q r) : s.Completed t l q r where
  stored n hn hf hl := (h.stored n hn hf hl).imp_left State.Stored.of_setLane
  held hn := by
    obtain ⟨state, record, request, lanes, rest⟩ := h.held hn
    exact ⟨state, record, request, fun m hm => (lanes m hm).trans (Table.get_set_of_ne _ _ _ hm), rest⟩
  screens := h.screens

end

/-! ### The record of a search (R57 to R59) -/

/-- R57 to R59: the record in which the search of a lane ends. -/
def State.searchRecord (s : State) (lane : Lane) (q : Request) (ctx : SearchContext) : RouteRecord :=
  let found := s.search lane ctx
  match found.2 with
  | some (target, label) =>
    s.foundRecord { lane with trimmed := found.1.trimmed } q ctx found.1.labels target label
  | none => recordWithoutRoute { lane with trimmed := found.1.trimmed } q ctx .unreachable

section

variable {s : State} {lane : Lane} {q : Request} {ctx : SearchContext}

theorem State.searchRecord_unreachable (h : (s.search lane ctx).2 = none) : s.searchRecord lane q ctx =
    recordWithoutRoute { lane with trimmed := (s.search lane ctx).1.trimmed } q ctx .unreachable := by
  simp only [State.searchRecord, h]

theorem State.searchRecord_found {target label : Nat} (h : (s.search lane ctx).2 = some (target, label)) :
    s.searchRecord lane q ctx = s.foundRecord { lane with trimmed := (s.search lane ctx).1.trimmed } q ctx
      (s.search lane ctx).1.labels target label := by
  simp only [State.searchRecord, h]

/-- R59: what every record carries is the request's, the context's and the lane's flags. -/
theorem State.searchRecord_carries (s : State) (lane : Lane) (q : Request) (ctx : SearchContext) :
    let r := s.searchRecord lane q ctx
    r.tag = q.tag ∧ r.screen = q.screen ∧ r.destination = q.destination ∧ r.category = ctx.category ∧
      r.trimmed = (s.search lane ctx).1.trimmed ∧ r.egress = lane.egress ∧ r.destClosed = lane.destClosed ∧
      r.clockUnset = lane.clockUnset ∧ r.epoch = ctx.epoch ∧ r.generation = ctx.generation := by
  unfold State.searchRecord
  dsimp only
  split <;> exact ⟨rfl, rfl, rfl, rfl, rfl, rfl, rfl, rfl, rfl, rfl⟩

/-- A target's member index is that of its first place in the target set. -/
theorem memberIndexOf_append (before after : List (Nat × Option Nat)) {target : Nat} (k : Option Nat)
    (h : ∀ x ∈ before, x.1 ≠ target) : memberIndexOf (before ++ (target, k) :: after) target = k := by
  have absent : before.find? (fun x => decide (x.1 = target)) = none := by simpa using h
  simp [memberIndexOf, List.find?_append, absent]

/-- R52 to R60: RECORD_COMPLETE of a SEARCHING lane completes the record of its search. -/
theorem State.recordComplete_searching {l : Nat} (h : s.StoreCanonical) (hl : (s.lane l).state = .searching)
    (hq : (s.lane l).request = some q) (hc : (s.lane l).context = some ctx) :
    s.recordComplete l =
      (s.withSearch l (s.search (s.lane l) ctx).1).askSlot l (s.searchRecord (s.lane l) q ctx) := by
  have complete : s.recordComplete l = s.completeSearch l q ctx := by
    simp only [State.recordComplete, hl, if_true, hq, hc]
  rw [complete, State.completeSearch, State.searchRecord]
  obtain ⟨f, ending⟩ := s.search (s.lane l) ctx
  have lane : (s.withSearch l f).lane l =
      { s.lane l with labels := f.labels, heap := f.heap, trimmed := f.trimmed } := Table.get_set_self _ h.lanes _ _
  cases ending with
  | none => simp only [lane]; rfl
  | some reached => simp only [lane, State.withSearch_foundRecord]; rfl

end

/-- R60, R177: the row acts while RESET is not asserted. -/
theorem exec_recordComplete {s : State} (h : s.Running) (l : Fin 4) :
    exec (.recordComplete l) s = .next (s.recordComplete l.val) := by
  have running : s.running = true := by simp [State.running, show s.pins.resetAsserted = false from h]
  change Host.Outcome.next (s.event _) = _
  rw [State.event, if_pos running]

end Sys2Proof.Machine
end

section

open Sys2Proof Sys2Proof.Machine

/-- Settles O44: the row completes `State.searchRecord`; the record's fields are read off it, and its route is that of a
search ended before a round (`State.Ended.rebuild`). -/
theorem recordCompleteStoresTheRecord : Obligations.RecordCompleteStoresTheRecord := by
  intro s l q ctx running canonical
  rw [exec_recordComplete running]
  refine ⟨fun idle => by rw [State.recordComplete, if_neg idle], fun searching request context active => ?_⟩
  obtain ⟨tag, screen, destination, category, trimmed, egress, destClosed, clockUnset, epoch, generation⟩ :=
    s.searchRecord_carries (s.lane l) q ctx
  have kept : ((s.withSearch l (s.search (s.lane l) ctx).1).lane l).request = some q := by
    rw [State.withSearch, State.lane, State.setLane_lanes, Table.get_set_self _ canonical.lanes, request]
  have completed := State.askSlot_completed (r := s.searchRecord (s.lane l) q ctx)
    (s.withSearch_storeCanonical canonical.store l _) kept (by rw [screen]; exact active)
  refine ⟨_, s.searchRecord (s.lane l) q ctx,
    congrArg _ (State.recordComplete_searching canonical.store searching request context),
    completed.of_setLane, State.askSlot_frame _ _ _, tag, screen, destination, category, trimmed, egress, destClosed,
    clockUnset, epoch, generation, fun unreachable => ?_, fun target label found => ?_⟩
  · rw [State.searchRecord_unreachable unreachable]
    exact ⟨rfl, rfl, rfl, rfl, rfl, rfl, rfl, rfl, rfl⟩
  · rw [State.searchRecord_found found]
    refine ⟨rfl, rfl, rfl, rfl, fun before k after targets first => ?_, fun site => ?_, rfl, rfl⟩
    · exact (congrArg (memberIndexOf · target) targets).trans (memberIndexOf_append before after k first)
    · exact (State.search_ended site (canonical.labels l)).rebuild site found

end

section
/-! SUPPORT. The target set of a search (R46 to R48, R51): which members of a group are its targets. -/

namespace Sys2Proof.Machine

/-- A member of a group as a target: its node with its member index. -/
def State.memberAt (s : State) (g i : Nat) : Nat × Option Nat := ((s.member ((s.group g).memberStart + i)).node, some i)

/-- R48: the group's member of this index is open. -/
def State.openAt (s : State) (g i : Nat) : Bool := s.memberOpen (s.member ((s.group g).memberStart + i))

section

variable (s : State) (g : Nat)

theorem State.memberOpen_iff (m : Member) :
    s.memberOpen m = true ↔ m.gate = none ∨ ∃ gate, m.gate = some gate ∧ s.gate gate = .opened := by
  unfold State.memberOpen
  cases m.gate <;> simp

/-- R46: the targets in EGRESS are all members of the exit group. -/
theorem State.exitTargets_eq : s.exitTargets =
    (List.range (s.group s.site.header.exitGroup).memberCount).map (s.memberAt s.site.header.exitGroup) :=
  List.map_map

theorem State.openMembers_eq : ((s.groupMembers g).filter fun m => s.memberOpen m.2).map memberTarget =
    ((List.range (s.group g).memberCount).filter (s.openAt g)).map (s.memberAt g) := by
  rw [State.groupMembers, List.filter_map, List.map_map]
  rfl

/-- R48, NEAREST: the open members. -/
theorem State.groupTargets_nearest (h : (s.group g).selection = .nearest) : s.groupTargets g =
    ((List.range (s.group g).memberCount).filter (s.openAt g)).map (s.memberAt g) := by
  simp only [State.groupTargets, h, State.openMembers_eq]

/-- R48, FIRST OPEN: the open member of least index. -/
theorem State.groupTargets_firstOpen (h : (s.group g).selection = .firstOpen) : s.groupTargets g =
    (((List.range (s.group g).memberCount).find? (s.openAt g)).map (s.memberAt g)).toList := by
  simp only [State.groupTargets, h, State.openMembers_eq, List.take_one, List.head?_map, List.head?_filter]

theorem State.firstOpen_iff (count i : Nat) : (List.range count).find? (s.openAt g) = some i ↔
    (i < count ∧ s.openAt g i = true) ∧ ∀ j, j < i → ¬ (j < count ∧ s.openAt g j = true) := by
  rw [List.find?_range_eq_some, List.mem_range]
  constructor
  · rintro ⟨isOpen, within, before⟩
    exact ⟨⟨within, isOpen⟩, fun j hj other => by simpa [other.2] using before j hj⟩
  · rintro ⟨⟨within, isOpen⟩, before⟩
    exact ⟨isOpen, within, fun j hj => by simpa [hj.trans within] using before j hj⟩

theorem State.exists_memberAt_iff {P : Nat → Prop} (node : Nat) (k : Option Nat) :
    (∃ i, P i ∧ s.memberAt g i = (node, k)) ↔
      ∃ i, P i ∧ k = some i ∧ node = (s.member ((s.group g).memberStart + i)).node := by
  simp only [State.memberAt, Prod.mk.injEq, and_comm, eq_comm]

theorem State.destClosed_iff (ctx : SearchContext) :
    s.destClosed ctx = true ↔ ctx.mode = .normal ∧ ∃ gate, ctx.ownGate = some gate ∧ s.gate gate = .closed := by
  unfold State.destClosed
  cases ctx.ownGate <;> simp

end

end Sys2Proof.Machine
end

section

open Sys2Proof.Machine

/-- Settles O43: each target list is the group's members of some indices (`State.memberAt`), all of them, the open ones, or
the first open one. -/
theorem targetsAreFormedFromTheEntry : Obligations.TargetsAreFormedFromTheEntry := by
  intro s ctx memberOf opened
  have opened_iff (g i : Nat) : opened g i ↔ i < (s.group g).memberCount ∧ s.openAt g i = true :=
    and_congr_right fun _ => (s.memberOpen_iff _).symm
  refine ⟨fun egress node k => ?_, fun normal direct => ?_, fun normal group nearest node k => ?_,
    fun normal group first node k => ?_, s.destClosed_iff ctx⟩
  · rw [State.targetSet, egress]
    dsimp only
    rw [s.exitTargets_eq, List.mem_map, State.exists_memberAt_iff]
    simp only [List.mem_range, memberOf]
  · rw [State.targetSet, normal, direct]
  · rw [State.targetSet, normal, group]
    dsimp only
    rw [s.groupTargets_nearest _ nearest, List.mem_map, State.exists_memberAt_iff]
    simp only [List.mem_filter, List.mem_range, opened_iff, memberOf]
  · rw [State.targetSet, normal, group]
    dsimp only
    rw [s.groupTargets_firstOpen _ first, Option.mem_toList, Option.map_eq_some_iff, State.exists_memberAt_iff]
    simp only [State.firstOpen_iff, opened_iff, memberOf, and_assoc]

end

section
/-! SUPPORT. Freeing a slot, with the grant to the lane at the head of the holders list, and CANCEL (R62, R63, R79, R94). -/

namespace Sys2Proof.Machine

/-! ### Freeing a slot (R79) -/

section

variable (s : State) (n : Nat)

/-- Storing a record writes the screens, the lanes, the store and the notices. -/
theorem State.storeRecord_frame (l : Nat) (r : RouteRecord) : s.storeRecord n l r = { s with
    dispatcher := { s.dispatcher with screens := (s.storeRecord n l r).dispatcher.screens }
    lanes := (s.storeRecord n l r).lanes, store := (s.storeRecord n l r).store
    link := { s.link with notices := (s.storeRecord n l r).link.notices
                          overrunMark := (s.storeRecord n l r).link.overrunMark
                          dropped := (s.storeRecord n l r).link.dropped } } := by
  obtain ⟨notices, mark, count, h⟩ := s.link.offer_frame (.resultReady r.screen n r.tag r.status)
  simp only [State.storeRecord, State.offer, State.freeLane, State.setLane, State.setScreen, State.setSlot, h]

theorem State.freeSlot_frame (screen : Nat) : s.freeSlot n screen = { s with
    store := (s.freeSlot n screen).store
    dispatcher := { s.dispatcher with screens := (s.freeSlot n screen).dispatcher.screens }
    lanes := (s.freeSlot n screen).lanes
    link := { s.link with notices := (s.freeSlot n screen).link.notices
                          overrunMark := (s.freeSlot n screen).link.overrunMark
                          dropped := (s.freeSlot n screen).link.dropped } } := by
  unfold State.freeSlot State.grantSlot
  split
  · rfl
  · split
    · rfl
    · exact State.storeRecord_frame _ n _ _

/-- R79: a slot is freed, and a lane that holds takes it. -/
theorem State.freeSlot_slotFreed {s : State} (h : s.StoreCanonical) (screen : Nat) :
    s.SlotFreed (s.freeSlot n screen) n screen where
  alone empty := by
    have freed : s.freeSlot n screen = (s.setSlot n none).setScreen screen .idle := State.grantSlot_alone n empty
    rw [freed]
    exact ⟨⟨Table.get_set_self _ h.slots _ _, fun m hm => Table.get_set_of_ne _ _ _ hm, empty,
      Table.get_set_self _ h.screens _ _, fun i hi => Table.get_set_of_ne _ _ _ hi, rfl⟩, rfl⟩
  granted l rest r holders record other := by
    let freed := ((s.setSlot n none).setScreen screen .idle).setHolders rest
    have canonical : freed.StoreCanonical := ⟨Table.wf_set _ h.slots _ _, Table.wf_set _ h.screens _ _, h.lanes⟩
    have granted : s.freeSlot n screen = freed.storeRecord n l r := State.grantSlot_eq holders record
    have stored := State.storeRecord_stored canonical n l r
    rw [granted]
    exact ⟨{ stored with slots := fun m hm => (stored.slots m hm).trans (Table.get_set_of_ne _ _ _ hm) },
      (freed.storeRecord_screens n l r (Ne.symm other)).trans (Table.get_set_self _ h.screens _ _),
      fun i hi hr => (freed.storeRecord_screens n l r hr).trans (Table.get_set_of_ne _ _ _ hi),
      freed.storeRecord_holders n l r, freed.storeRecord_link n l r⟩
  frame := s.freeSlot_frame n screen

/-! The receiver's return to HUNT and the freeing of a slot do not meet. -/

theorem State.hunting_storeRecord (l : Nat) (r : RouteRecord) :
    s.hunting.storeRecord n l r = (s.storeRecord n l r).hunting :=
  congrArg (fun k => ({ s.storeRecord n l r with link := k } : State)) (s.link.toHunt_offer _)

theorem State.hunting_grantSlot : s.hunting.grantSlot n = (s.grantSlot n).hunting := by
  unfold State.grantSlot
  cases holders : s.store.holders with
  | nil => simp only [State.hunting_store, holders]
  | cons l rest =>
    have lane : s.hunting.lane l = s.lane l := rfl
    cases record : (s.lane l).record with
    | none => simp only [State.hunting_store, holders, lane, record]
    | some r =>
      simp only [State.hunting_store, holders, lane, record]
      exact (s.setHolders rest).hunting_storeRecord n l r

theorem State.hunting_freeSlot (screen : Nat) : s.hunting.freeSlot n screen = (s.freeSlot n screen).hunting :=
  ((s.setSlot n none).setScreen screen .idle).hunting_grantSlot n

end

/-! ### CANCEL (R94) -/

section

variable {s : State} {screen : Nat}

@[simp] theorem State.hunting_screen (i : Nat) : s.hunting.screen i = s.screen i := rfl

theorem exec_cancel (h : s.Started) (b : Byte) :
    exec (.cancel [b]) s = .next ((s.hunting.cancel b.toNat).replied .cancel) := by
  change Host.Outcome.next (s.take _ _ _) = _
  rw [State.take_of_started h rfl, byteAt_cons_zero]

theorem State.cancel_badScreen (h : 64 ≤ screen) : s.cancel screen = refuse s .badScreen := if_pos h

theorem State.cancel_screen (h : screen < 64) : s.cancel screen = match s.screen screen with
    | .idle => refuse s .nothingPending
    | .queued => accept ((s.setQueue (s.dispatcher.queue.filter fun e => e.request.screen ≠ screen)).setScreen
        screen .idle)
    | .active l => accept ((s.withdraw l).setScreen screen .idle)
    | .ready n => accept (s.freeSlot n screen) := if_neg (Nat.not_le.mpr h)

/-- R62, R63: what stays of a lane's search or record. -/
theorem State.withdraw_lane (h : Table.wf .cleared s.lanes = true) (l : Nat) :
    (s.withdraw l).lane l = { Lane.cleared with labels := (s.lane l).labels, heap := (s.lane l).heap } :=
  Table.get_set_self _ h _ _

end

end Sys2Proof.Machine
end

section

open Sys2Proof Sys2Proof.Machine

/-- Settles O40, by the state of the screen. -/
theorem cancelEndsWhatAScreenHas : Obligations.CancelEndsWhatAScreenHas := by
  intro s b started canonical c screen
  have cancelled : exec c s = .next ((s.hunting.cancel screen).replied .cancel) := exec_cancel started b
  rw [cancelled]
  refine ⟨fun above => ?_, fun below => ?_⟩
  · rw [State.cancel_badScreen above]
    exact congrArg _ (s.refuse_replied .cancel .badScreen (by decide))
  · rw [State.cancel_screen below]
    refine ⟨fun idle => ?_, fun queued => ?_, fun l active => ?_, fun n ready => ?_⟩
    · rw [State.hunting_screen, idle]
      exact congrArg _ (s.refuse_replied .cancel .nothingPending (by decide))
    · rw [State.hunting_screen, queued]
      dsimp only
      exact ⟨_, rfl, rfl, Table.get_set_self _ canonical.screens _ _, fun i hi => Table.get_set_of_ne _ _ _ hi, rfl⟩
    · rw [State.hunting_screen, active]
      dsimp only
      have lane := State.withdraw_lane canonical.lanes l
      exact ⟨_, rfl, congrArg Lane.state lane, congrArg Lane.request lane, congrArg Lane.context lane,
        congrArg Lane.targets lane, congrArg Lane.record lane, congrArg Lane.trimmed lane, congrArg Lane.egress lane,
        congrArg Lane.destClosed lane, congrArg Lane.clockUnset lane, fun m hm => Table.get_set_of_ne _ _ _ hm,
        Table.get_set_self _ canonical.screens _ _, fun i hi => Table.get_set_of_ne _ _ _ hi, rfl⟩
    · rw [State.hunting_screen, ready]
      refine ⟨s.freeSlot n screen, State.freeSlot_slotFreed n canonical.store screen, ?_⟩
      dsimp only
      rw [State.hunting_freeSlot]
      rfl

end

section
/-! SUPPORT. GRANT: the entry and the lane it takes, the passes it gives, and what the lane does at once (R43, R49, R50,
R91, R92). -/

namespace Sys2Proof.Machine

/-! ### The lane and the entry (R91, R92) -/

theorem highest_eq {priorities : List Nat} {p : Nat} (mem : p ∈ priorities) (most : ∀ x ∈ priorities, x ≤ p) :
    highest priorities = p := by
  have fold : ∀ a, a ≤ p → (p ∈ priorities ∨ a = p) → priorities.foldl max a = p := by
    clear mem
    induction priorities with
    | nil => exact fun a _ h => h.resolve_left List.not_mem_nil
    | cons x rest ih =>
      intro a ha h
      refine ih (fun y hy => most y (List.mem_cons_of_mem x hy)) _ (max_le ha (most x List.mem_cons_self)) ?_
      rcases h with h | rfl
      · rcases List.mem_cons.mp h with rfl | h
        · exact .inr (max_eq_right ha)
        · exact .inl h
      · exact .inr (max_eq_left (most x List.mem_cons_self))
  exact fold 0 (Nat.zero_le p) (.inl mem)

section

variable {s : State}

theorem exec_grant (h : s.Running) : exec .grant s = .next s.grant :=
  congrArg Host.Outcome.next (State.event_of_running h State.grant)

theorem State.lowestFreeLane_eq {l : Nat} (hl : l < 4) (free : (s.lane l).state = .free)
    (before : ∀ m, m < l → (s.lane m).state ≠ .free) : s.lowestFreeLane = some l := by
  unfold State.lowestFreeLane
  rw [List.find?_range_eq_some]
  exact ⟨by simpa using free, by simpa [Config.lanes] using hl, fun m hm => by simpa using before m hm⟩

theorem State.lowestFreeLane_eq_none (h : ∀ l, l < 4 → (s.lane l).state ≠ .free) : s.lowestFreeLane = none := by
  unfold State.lowestFreeLane
  rw [List.find?_eq_none]
  intro l hl
  simpa using h l (by simpa [Config.lanes] using hl)

/-- R92: while one of the four conditions fails, no entry is granted. -/
theorem State.grant_of_not_grantable (h : (∀ l, l < 4 → (s.lane l).state ≠ .free) ∨ s.dispatcher.queue = [] ∨
    s.site.state ≠ .valid ∨ s.conditions.turn ≠ .idle) : s.grant = s := by
  have refused : s.grantable = false := by
    unfold State.grantable
    rcases h with busy | empty | site | turn
    · simp [State.lowestFreeLane_eq_none busy]
    · simp [empty]
    · simp [site]
    · simp [turn]
  rw [State.grant, if_neg (by simp [refused])]

section

variable {ahead behind : List QueueEntry} {e : QueueEntry} (queue : s.dispatcher.queue = ahead ++ e :: behind)
include queue

/-- R92: the oldest entry of the highest priority. -/
theorem State.chosen_eq (below : ∀ x ∈ ahead, s.priorityOf x < s.priorityOf e)
    (most : ∀ x ∈ behind, s.priorityOf x ≤ s.priorityOf e) : s.chosen = some ahead.length := by
  have top : highest (s.dispatcher.queue.map s.priorityOf) = s.priorityOf e := by
    refine highest_eq (by simp [queue]) fun p hp => ?_
    obtain ⟨x, hx, rfl⟩ := List.mem_map.mp hp
    rw [queue, List.mem_append, List.mem_cons] at hx
    rcases hx with hx | rfl | hx
    · exact (below x hx).le
    · exact le_rfl
    · exact most x hx
  have absent : (ahead.map s.priorityOf).findIdx? (fun p => decide (p = s.priorityOf e)) = none := by
    simpa using fun x hx => (below x hx).ne
  unfold State.chosen
  dsimp only
  rw [top, queue, List.map_append, List.map_cons, List.findIdx?_append, absent, List.findIdx?_cons]
  simp

/-- R92: the entry leaves the queue, the entries ahead of it are passed over, and the lane takes the request. -/
theorem State.grantEntry_eq (l : Nat) : s.grantEntry l ahead.length =
    ((s.setQueue (ahead.map (s.passed (s.priorityOf e)) ++ behind)).setScreen e.request.screen (.active l)).startSearch
      l e.request := by
  have entry : s.dispatcher.queue[ahead.length]? = some e := by simp [queue]
  have taken : s.dispatcher.queue.take ahead.length = ahead := by simp [queue]
  have dropped : s.dispatcher.queue.drop (ahead.length + 1) = behind := by simp [queue, List.drop_append]
  simp only [State.grantEntry, entry, taken, dropped]

theorem State.grant_eq {l : Nat} (hl : l < 4) (free : (s.lane l).state = .free)
    (before : ∀ m, m < l → (s.lane m).state ≠ .free) (site : s.site.state = .valid) (turn : s.conditions.turn = .idle)
    (below : ∀ x ∈ ahead, s.priorityOf x < s.priorityOf e)
    (most : ∀ x ∈ behind, s.priorityOf x ≤ s.priorityOf e) : s.grant =
    ((s.setQueue (ahead.map (s.passed (s.priorityOf e)) ++ behind)).setScreen e.request.screen (.active l)).startSearch
      l e.request := by
  have lane := State.lowestFreeLane_eq hl free before
  have grantable : s.grantable = true := by simp [State.grantable, lane, queue, site, turn]
  rw [State.grant, if_pos grantable, lane, State.chosen_eq queue below most]
  exact State.grantEntry_eq queue l

end

/-! ### Priorities and passes (R91) -/

theorem State.priorityOf_normal (normal : s.egress.mode = .normal) (x : QueueEntry) : s.priorityOf x =
    if x.request.assist = true ∨ 8 ≤ x.request.passes then 3 else (s.screenRecord x.request.screen).priority := by
  simp [State.priorityOf, normal, Config.passesMost]

theorem State.priorityOf_egress (egress : s.egress.mode = .egress) (x : QueueEntry) : s.priorityOf x = 3 := by
  simp [State.priorityOf, egress]

theorem State.passed_below (normal : s.egress.mode = .normal) {p : Nat} {x : QueueEntry} (below : s.priorityOf x < p) :
    s.passed p x = { x with request := { x.request with passes := x.request.passes + 1 } } := by
  simp [State.passed, normal, below]

/-! ### What the lane does (R43, R49, R50) -/

/-- R43 item 4: the context as the entry, the screen record and the present state give it. -/
theorem State.contextOf_eq (q : Request) : s.contextOf q =
    { mode := s.egress.mode
      profile := match s.egress.mode, q.choice with
        | .egress, _ => 7
        | .normal, some p => p
        | .normal, none => (s.screenRecord q.screen).profile
      origin := (s.screenRecord q.screen).node
      facing := (s.screenRecord q.screen).facing
      kind := (s.directoryEntry q.destination).kind
      ref := (s.directoryEntry q.destination).ref
      category := (s.directoryEntry q.destination).category
      ownGate := (s.directoryEntry q.destination).ownGate
      epoch := s.conditions.epoch, generation := s.site.generation, clockSet := s.schedule.clockSet } := by
  unfold State.contextOf State.resolvedProfile
  cases s.egress.mode <;> cases q.choice <;> rfl

section

variable {l : Nat} {q : Request}

theorem State.startSearch_searches (present : s.targetSet (s.contextOf q) ≠ [])
    (away : ∀ x ∈ s.targetSet (s.contextOf q), x.1 ≠ (s.contextOf q).origin) :
    s.startSearch l q = s.setLane l (s.searchingLane l q) := by
  have empty : (s.targetSet (s.contextOf q)).isEmpty = false := by simpa using present
  have target : isTarget (s.targetSet (s.contextOf q)) (s.contextOf q).origin = false := by
    simpa [isTarget] using away
  unfold State.startSearch
  simp only [State.searchingLane, empty, target, Bool.false_eq_true, if_false]

theorem State.startSearch_noTarget (empty : s.targetSet (s.contextOf q) = []) : s.startSearch l q =
    (s.setLane l (s.searchingLane l q)).askSlot l
      (recordWithoutRoute (s.searchingLane l q) q (s.contextOf q) .noOpenEntrance) := by
  simp only [State.startSearch, State.searchingLane, empty, List.isEmpty_nil, if_true]

theorem State.startSearch_arrived {before after : List (Nat × Option Nat)} {k : Option Nat}
    (targets : s.targetSet (s.contextOf q) = before ++ ((s.contextOf q).origin, k) :: after) : s.startSearch l q =
    (s.setLane l (s.searchingLane l q)).askSlot l
      ((s.setLane l (s.searchingLane l q)).arrivedRecord (s.searchingLane l q) q (s.contextOf q)) := by
  have target : isTarget (s.targetSet (s.contextOf q)) (s.contextOf q).origin = true :=
    (isTarget_iff _ _).mpr ⟨k, by simp [targets]⟩
  have empty : (s.targetSet (s.contextOf q)).isEmpty = false := by simp [targets]
  unfold State.startSearch
  simp only [State.searchingLane, empty, target, Bool.false_eq_true, if_false, if_true]

/-- Taking a request writes the screens, the lanes, the store and the notices. -/
theorem State.startSearch_frame (s : State) (l : Nat) (q : Request) : s.startSearch l q = { s with
    dispatcher := { s.dispatcher with screens := (s.startSearch l q).dispatcher.screens }
    lanes := (s.startSearch l q).lanes, store := (s.startSearch l q).store
    link := { s.link with notices := (s.startSearch l q).link.notices
                          overrunMark := (s.startSearch l q).link.overrunMark
                          dropped := (s.startSearch l q).link.dropped } } := by
  unfold State.startSearch
  dsimp only
  split
  · exact State.askSlot_frame _ l _
  · split
    · exact State.askSlot_frame _ l _
    · rfl

/-- What the queue and the record's own screen held before is not part of what a completed record leaves. -/
theorem State.Completed.of_queue_screen {t : State} {r : RouteRecord} {queue : List QueueEntry} {v : ScreenStatus}
    (h : ((s.setQueue queue).setScreen r.screen v).Completed t l q r) : s.Completed t l q r where
  stored n hn hf hl := by
    obtain ⟨stored, rest⟩ := h.stored n hn hf hl
    exact ⟨{ stored with }, rest⟩
  held := h.held
  screens i hi := (h.screens i hi).trans (Table.get_set_of_ne _ _ _ hi)

/-- R49, R50: a granted lane that completes a record at once. -/
theorem State.granted_completed (h : s.StoreCanonical) (queue : List QueueEntry) {r : RouteRecord}
    (own : r.screen = q.screen) {v : Lane} (request : v.request = some q) :
    s.Completed ((((s.setQueue queue).setScreen q.screen (.active l)).setLane l v).askSlot l r) l q r := by
  rw [← own]
  have canonical : (((s.setQueue queue).setScreen r.screen (.active l)).setLane l v).StoreCanonical :=
    ⟨h.slots, Table.wf_set _ h.screens _ _, Table.wf_set _ h.lanes _ _⟩
  have lane : (((s.setQueue queue).setScreen r.screen (.active l)).setLane l v).lane l = v :=
    Table.get_set_self _ h.lanes _ _
  have completed := State.askSlot_completed (r := r) canonical ((congrArg Lane.request lane).trans request)
    (Table.get_set_self _ h.screens _ _)
  exact completed.of_setLane.of_queue_screen

end

end

end Sys2Proof.Machine
end

section

open Sys2Proof Sys2Proof.Machine

/-- Settles O42: GRANT is `State.startSearch` of the chosen request on the lowest FREE lane (`State.grant_eq`), which
searches, or completes a record at once. -/
theorem grantTakesTheChosenEntry : Obligations.GrantTakesTheChosenEntry := by
  refine ⟨fun s running refused => by rw [exec_grant running, State.grant_of_not_grantable refused], ?_⟩
  intro s l ahead behind e running canonical hl free lowest site turn queue q priority normal egress entry ctx targets
    record
  have context : ctx = s.contextOf q := (State.contextOf_eq q).symm
  clear_value ctx
  subst context
  have order : (∀ x ∈ ahead, s.priorityOf x < s.priorityOf e) ∧ ∀ x ∈ behind, s.priorityOf x ≤ s.priorityOf e := by
    cases mode : s.egress.mode with
    | normal => simpa only [State.priorityOf_normal mode] using normal mode
    | egress => simp [egress mode, State.priorityOf_egress mode]
  have passes : ahead.map (s.passed (s.priorityOf e)) = ahead.map fun x =>
      ({ x with request := { x.request with passes := x.request.passes + 1 } } : QueueEntry) := by
    cases mode : s.egress.mode with
    | normal => exact List.map_congr_left fun x hx => State.passed_below mode (order.1 x hx)
    | egress => rw [egress mode]; rfl
  let granted := (s.setQueue (ahead.map (s.passed (s.priorityOf e)) ++ behind)).setScreen q.screen (.active l)
  have frame := granted.startSearch_frame l q
  have dispatcher := congrArg State.dispatcher frame
  rw [exec_grant running, State.grant_eq queue hl free lowest site turn order.1 order.2, ← passes]
  refine ⟨_, rfl, congrArg RequestDispatcher.queue dispatcher, ?_, fun present away => ?_, fun empty => ?_,
    fun before k after arrived first => ?_⟩
  · change granted.startSearch l q = _
    rw [dispatcher]
    exact frame
  · rw [State.startSearch_searches (s := granted) present away]
    exact ⟨Table.get_set_self _ canonical.lanes _ _, fun m hm => Table.get_set_of_ne _ _ _ hm,
      Table.get_set_self _ canonical.screens _ _, fun i hi => Table.get_set_of_ne _ _ _ hi, rfl, rfl⟩
  · rw [State.startSearch_noTarget (s := granted) empty]
    exact State.granted_completed canonical.store _ rfl rfl
  · have reached : memberIndexOf targets (s.contextOf q).origin = k := by
      rw [arrived]
      exact memberIndexOf_append before after k first
    have arrivedRecord :
        (granted.setLane l (granted.searchingLane l q)).arrivedRecord (granted.searchingLane l q) q (granted.contextOf q) =
          record .arrived k (some ((s.contextOf q).origin, (s.node (s.contextOf q).origin).floor)) := by
      rw [← reached]
      rfl
    rw [State.startSearch_arrived (s := granted) arrived, arrivedRecord]
    exact State.granted_completed canonical.store _ rfl rfl

end

section
/-! SUPPORT. The STATUS report: its 46 numbers in order, and what each field reads as (R173, R179). -/

namespace Sys2Proof.Machine

/-! ### Numbers kept a byte each -/

section

variable (numbers : List Nat) (i : Nat)

theorem byteAt_map_ofNat : byteAt (numbers.map (BitVec.ofNat 8)) i = numbers.getD i 0 % 256 := by
  induction numbers generalizing i with
  | nil => simp
  | cons n rest ih => cases i <;> simp [ih]

theorem wordAt_eq_byteAt (bytes : List Byte) : wordAt bytes i = byteAt bytes i + 256 * byteAt bytes (i + 1) := by
  induction bytes generalizing i with
  | nil => simp [wordAt, ofLe]
  | cons b rest ih =>
    cases i with
    | zero => cases rest <;> simp [wordAt, ofLe]
    | succ i => simp [ih]

theorem longAt_eq_wordAt (bytes : List Byte) : longAt bytes i = wordAt bytes i + 65536 * wordAt bytes (i + 2) := by
  have split : bytes.drop (i + 2) = (bytes.drop i).drop 2 := by rw [List.drop_drop]
  unfold longAt wordAt
  rw [split]
  rcases bytes.drop i with _ | ⟨a, _ | ⟨b, _ | ⟨c, _ | ⟨d, rest⟩⟩⟩⟩ <;> simp [ofLe] <;> omega

/-- A number below 65536 reads back from two bytes. -/
theorem wordAt_map_ofNat {n : Nat} (hn : n < 65536) (low : numbers.getD i 0 = n) (high : numbers.getD (i + 1) 0 = n / 256) :
    wordAt (numbers.map (BitVec.ofNat 8)) i = n := by
  rw [wordAt_eq_byteAt, byteAt_map_ofNat, byteAt_map_ofNat, low, high]
  omega

/-- Four bytes hold a number modulo 4294967296. -/
theorem longAt_map_ofNat {n : Nat} (b0 : numbers.getD i 0 = n) (b1 : numbers.getD (i + 1) 0 = n / 256)
    (b2 : numbers.getD (i + 2) 0 = n / 65536) (b3 : numbers.getD (i + 3) 0 = n / 16777216) :
    longAt (numbers.map (BitVec.ofNat 8)) i = n % 4294967296 := by
  rw [longAt_eq_wordAt, wordAt_eq_byteAt, wordAt_eq_byteAt]
  simp only [byteAt_map_ofNat, b0, b1, b2, b3]
  omega

end

/-! ### The report (R173) -/

/-- R166: the operation STATUS reports: the running one, and in IDLE the last. -/
def TransferUnit.reportedOperation (t : TransferUnit) : Option Operation :=
  if t.state = .idle then t.last.map Prod.fst else t.operation

/-- R166: the byte offset, absent in IDLE. -/
def TransferUnit.reportedOffset (t : TransferUnit) : Nat := if t.state = .idle then 4294967295 else t.offset

/-- R166: the code of the last outcome, absent while a transfer runs. -/
def TransferUnit.reportedOutcome (t : TransferUnit) : Option Nat :=
  if t.state = .idle then t.last.map fun x => x.2.code x.1 else none

theorem TransferUnit.report_eq (t : TransferUnit) : t.report = le8 t.state.code ++
    opt8 (t.reportedOperation.map Operation.code) ++ le32 t.reportedOffset ++ opt8 t.reportedOutcome := by
  unfold TransferUnit.report TransferUnit.reportedOperation TransferUnit.reportedOffset TransferUnit.reportedOutcome
  split
  · rw [Option.map_map]; rfl
  · rfl

/-- The numbers of the STATUS report, a byte each. -/
def State.statusNumbers (s : State) : List Nat :=
  [flagCode s.link.startPending, s.link.resetKind.code, s.site.state.code, s.site.generation.toNat,
    s.site.generation.toNat / 256, s.transfer.state.code, (s.transfer.reportedOperation.map Operation.code).getD 255,
    s.transfer.reportedOffset, s.transfer.reportedOffset / 256, s.transfer.reportedOffset / 65536,
    s.transfer.reportedOffset / 16777216, s.transfer.reportedOutcome.getD 255, s.egress.mode.code,
    (s.egress.cause.map EntryCause.code).getD 255, alarmCode s.egress.asserted, s.conditions.epoch.toNat,
    s.conditions.epoch.toNat / 256, s.conditions.turn.code, s.conditions.edits.length, clockCode s.schedule.clockSet,
    s.schedule.second, s.schedule.second / 256, s.schedule.second / 65536, s.schedule.second / 16777216,
    s.schedule.day, s.schedule.late.length] ++
  (List.range 4).flatMap (fun l => [(s.lane l).state.code, ((s.lane l).request.map Request.screen).getD 255]) ++
  [s.occupiedSlots] ++ (List.range 4).map (fun i => s.store.holders[i]?.getD 255) ++
  [s.dispatcher.queue.length] ++ (List.range 4).map s.screensIn ++
  [s.link.notices.length, flagCode s.link.overrunMark]

theorem State.statusReport_eq (s : State) : s.statusReport = s.statusNumbers.map (BitVec.ofNat 8) := by
  have lanes : List.range 4 = [0, 1, 2, 3] := rfl
  unfold State.statusReport State.statusNumbers
  rw [TransferUnit.report_eq]
  simp only [Lane.report, holdersReport, Config.lanes, lanes, opt8, le8, le16, le32]
  simp only [List.flatMap_cons, List.flatMap_nil, List.map_cons, List.map_nil, List.cons_append, List.nil_append]

/-- The receiver's return to HUNT is not part of the report. -/
theorem State.hunting_statusReport (s : State) : s.hunting.statusReport = s.statusReport := by
  have lane (l : Nat) : s.hunting.lane l = s.lane l := rfl
  have slots : s.hunting.occupiedSlots = s.occupiedSlots := rfl
  have screens (code : Nat) : s.hunting.screensIn code = s.screensIn code := rfl
  unfold State.statusReport
  simp only [lane, slots, screens]
  rfl

section

variable (s : State)

theorem State.status_byte (i : Nat) : byteAt s.statusReport i = s.statusNumbers.getD i 0 % 256 := by
  rw [s.statusReport_eq, byteAt_map_ofNat]

theorem State.status_word {n : Nat} (i : Nat) (hn : n < 65536) (low : s.statusNumbers.getD i 0 = n)
    (high : s.statusNumbers.getD (i + 1) 0 = n / 256) : wordAt s.statusReport i = n := by
  rw [s.statusReport_eq]
  exact wordAt_map_ofNat _ i hn low high

theorem State.status_long {n : Nat} (i : Nat) (b0 : s.statusNumbers.getD i 0 = n)
    (b1 : s.statusNumbers.getD (i + 1) 0 = n / 256) (b2 : s.statusNumbers.getD (i + 2) 0 = n / 65536)
    (b3 : s.statusNumbers.getD (i + 3) 0 = n / 16777216) : longAt s.statusReport i = n % 4294967296 := by
  rw [s.statusReport_eq]
  exact longAt_map_ofNat _ i b0 b1 b2 b3

/-! The fields of the report, in its order. -/

theorem State.status_startPending : byteAt s.statusReport 0 = if s.link.startPending then 1 else 0 := by
  refine (s.status_byte 0).trans ?_
  change flagCode s.link.startPending % 256 = _
  cases s.link.startPending <;> rfl

theorem State.status_resetKind :
    byteAt s.statusReport 1 = match s.link.resetKind with | .powerOn => 0 | .soft => 1 := by
  refine (s.status_byte 1).trans ?_
  change s.link.resetKind.code % 256 = _
  cases s.link.resetKind <;> rfl

theorem State.status_siteState : byteAt s.statusReport 2 = match s.site.state with
    | .empty => 0 | .loading => 1 | .valid => 2 | .draining => 3 | .editing => 4 | .invalid => 5 := by
  refine (s.status_byte 2).trans ?_
  change s.site.state.code % 256 = _
  cases s.site.state <;> rfl

theorem State.status_generation : wordAt s.statusReport 3 = s.site.generation.toNat :=
  s.status_word 3 s.site.generation.isLt rfl rfl

theorem State.status_transferState : byteAt s.statusReport 5 = match s.transfer.state with
    | .idle => 0 | .readyWait => 1 | .readHeader => 2 | .readTables => 3 | .validate => 4 | .erase => 5
    | .program => 6 := by
  refine (s.status_byte 5).trans ?_
  change s.transfer.state.code % 256 = _
  cases s.transfer.state <;> rfl

theorem State.status_operation : byteAt s.statusReport 6 =
    match (if s.transfer.state = .idle then s.transfer.last.map Prod.fst else s.transfer.operation) with
    | some .load => 0 | some .dump => 1 | none => 255 := by
  refine (s.status_byte 6).trans ?_
  change (s.transfer.reportedOperation.map Operation.code).getD 255 % 256 = _
  unfold TransferUnit.reportedOperation
  rcases (if s.transfer.state = .idle then s.transfer.last.map Prod.fst else s.transfer.operation) with
    _ | _ | _ <;> rfl

theorem State.status_offset : longAt s.statusReport 7 =
    if s.transfer.state = .idle then 4294967295 else s.transfer.offset % 4294967296 := by
  refine (s.status_long (n := s.transfer.reportedOffset) 7 rfl rfl rfl rfl).trans ?_
  unfold TransferUnit.reportedOffset
  split <;> rfl

theorem State.status_outcome_of_running (running : s.transfer.state ≠ .idle) : byteAt s.statusReport 11 = 255 := by
  refine (s.status_byte 11).trans ?_
  change s.transfer.reportedOutcome.getD 255 % 256 = _
  rw [TransferUnit.reportedOutcome, if_neg running]
  rfl

theorem State.status_outcome_of_idle (idle : s.transfer.state = .idle) :
    byteAt s.statusReport 11 = match s.transfer.last with
      | none => 255
      | some (_, .valid) => 0
      | some (_, .badHeader _) => 1
      | some (_, .badRecord _ _) => 2
      | some (_, .checkMismatch _ _) => 3
      | some (_, .invalid _) => 4
      | some (.load, .flashTimeout _ _) => 5
      | some (_, .written) => 0
      | some (.dump, .flashTimeout _ _) => 1 := by
  refine (s.status_byte 11).trans ?_
  change s.transfer.reportedOutcome.getD 255 % 256 = _
  rw [TransferUnit.reportedOutcome, if_pos idle]
  rcases s.transfer.last with _ | ⟨operation, outcome⟩
  · rfl
  · cases operation <;> cases outcome <;> rfl

theorem State.status_mode : byteAt s.statusReport 12 = match s.egress.mode with | .normal => 0 | .egress => 1 := by
  refine (s.status_byte 12).trans ?_
  change s.egress.mode.code % 256 = _
  cases s.egress.mode <;> rfl

theorem State.status_cause : byteAt s.statusReport 13 =
    match s.egress.cause with | some .alarm => 0 | some .drill => 1 | none => 255 := by
  refine (s.status_byte 13).trans ?_
  change (s.egress.cause.map EntryCause.code).getD 255 % 256 = _
  rcases s.egress.cause with _ | _ | _ <;> rfl

theorem State.status_asserted : byteAt s.statusReport 14 = if s.egress.asserted then 0 else 1 := by
  refine (s.status_byte 14).trans ?_
  change alarmCode s.egress.asserted % 256 = _
  cases s.egress.asserted <;> rfl

theorem State.status_epoch : wordAt s.statusReport 15 = s.conditions.epoch.toNat :=
  s.status_word 15 s.conditions.epoch.isLt rfl rfl

theorem State.status_turn :
    byteAt s.statusReport 17 = match s.conditions.turn with | .idle => 0 | .waiting _ => 1 := by
  refine (s.status_byte 17).trans ?_
  change s.conditions.turn.code % 256 = _
  cases s.conditions.turn <;> rfl

theorem State.status_edits : byteAt s.statusReport 18 = s.conditions.edits.length % 256 := s.status_byte 18

theorem State.status_clock : byteAt s.statusReport 19 = if s.schedule.clockSet then 0 else 1 := by
  refine (s.status_byte 19).trans ?_
  change clockCode s.schedule.clockSet % 256 = _
  cases s.schedule.clockSet <;> rfl

theorem State.status_second : longAt s.statusReport 20 = s.schedule.second % 4294967296 :=
  s.status_long 20 rfl rfl rfl rfl

theorem State.status_day : byteAt s.statusReport 24 = s.schedule.day % 256 := s.status_byte 24

theorem State.status_late : byteAt s.statusReport 25 = s.schedule.late.length % 256 := s.status_byte 25

theorem State.status_laneState {l : Nat} (hl : l < 4) : byteAt s.statusReport (26 + 2 * l) =
    match (s.lane l).state with | .free => 0 | .searching => 1 | .holding => 2 := by
  have code : byteAt s.statusReport (26 + 2 * l) = (s.lane l).state.code % 256 := by
    interval_cases l <;> exact s.status_byte _
  rw [code]
  cases (s.lane l).state <;> rfl

theorem State.status_laneScreen {l : Nat} (hl : l < 4) : byteAt s.statusReport (27 + 2 * l) =
    match (s.lane l).request with | some r => r.screen % 256 | none => 255 := by
  have code : byteAt s.statusReport (27 + 2 * l) = ((s.lane l).request.map Request.screen).getD 255 % 256 := by
    interval_cases l <;> exact s.status_byte _
  rw [code]
  cases (s.lane l).request <;> rfl

theorem State.status_slots :
    byteAt s.statusReport 34 = ((List.range 48).filter fun n => (s.slot n).isSome).length := by
  have few : s.occupiedSlots ≤ 48 := (List.length_filter_le _ _).trans_eq List.length_range
  exact (s.status_byte 34).trans (Nat.mod_eq_of_lt (few.trans_lt (by decide)))

theorem State.status_holder {i : Nat} (hi : i < 4) : byteAt s.statusReport (35 + i) =
    match s.store.holders[i]? with | some l => l % 256 | none => 255 := by
  have code : byteAt s.statusReport (35 + i) = s.store.holders[i]?.getD 255 % 256 := by
    interval_cases i <;> exact s.status_byte _
  rw [code]
  cases s.store.holders[i]? <;> rfl

theorem State.status_queue : byteAt s.statusReport 39 = s.dispatcher.queue.length % 256 := s.status_byte 39

theorem State.status_screens {k : Nat} (hk : k < 4) :
    byteAt s.statusReport (40 + k) = ((List.range 64).filter fun i => (s.screen i).code = k).length := by
  have few : s.screensIn k ≤ 64 := (List.length_filter_le _ _).trans_eq List.length_range
  have code : byteAt s.statusReport (40 + k) = s.screensIn k % 256 := by
    interval_cases k <;> exact s.status_byte _
  exact code.trans (Nat.mod_eq_of_lt (few.trans_lt (by decide)))

theorem State.status_notices : byteAt s.statusReport 44 = s.link.notices.length % 256 := s.status_byte 44

theorem State.status_overrun : byteAt s.statusReport 45 = if s.link.overrunMark then 1 else 0 := by
  refine (s.status_byte 45).trans ?_
  change flagCode s.link.overrunMark % 256 = _
  cases s.link.overrunMark <;> rfl

/-- An OK answer that leaves the state as it is in HUNT. -/
theorem State.replied_ok (s : State) (kind : RequestKind) (data : List Byte) :
    Answer.replied { code := .ok, data := data, state := s.hunting } kind =
      s.answers (BitVec.ofNat 8 (0x80 + kind.code)) (0 :: data) := rfl

theorem exec_status {s : State} (h : s.Open) :
    exec (.status []) s = .next (s.answers 0x82 (0 :: s.statusReport)) := by
  have taken : exec (.status []) s = .next (s.hunting.status.replied .status) :=
    congrArg Host.Outcome.next (State.take_of_open h rfl (.inr rfl) State.status)
  rw [taken, State.status, State.replied_ok, State.hunting_statusReport]
  rfl

end

end Sys2Proof.Machine
end

section

open Sys2Proof Sys2Proof.Machine

/-- Settles O16, field by field. -/
theorem statusReportsThePart : Obligations.StatusReportsThePart := fun s h =>
  ⟨s.statusReport, exec_status h, (congrArg List.length s.statusReport_eq).trans (List.length_map _), s.status_startPending,
    s.status_resetKind, s.status_siteState, s.status_generation, s.status_transferState, s.status_operation,
    s.status_offset, s.status_outcome_of_running, s.status_outcome_of_idle, s.status_mode, s.status_cause,
    s.status_asserted, s.status_epoch, s.status_turn, s.status_edits, s.status_clock, s.status_second, s.status_day,
    s.status_late, fun _ hl => ⟨s.status_laneState hl, s.status_laneScreen hl⟩, s.status_slots,
    fun _ hi => s.status_holder hi, s.status_queue, fun _ hk => s.status_screens hk, s.status_notices,
    s.status_overrun⟩

end

section
/-! SUPPORT. What the commands can do to the searches that run (R43, R62, R107, R111): only GRANT begins one; every other
command leaves each SEARCHING lane its context, and the epoch, the generation and the mode change with no lane SEARCHING. -/

namespace Sys2Proof.Machine

/-! ### What searches run under -/

/-- What the searches are judged by: the lanes, and the epoch, generation and mode of the part. -/
structure SearchView where
  lanes : Table Lane
  epoch : Word16
  generation : Word16
  mode : Mode

def State.searchView (s : State) : SearchView :=
  { lanes := s.lanes, epoch := s.conditions.epoch, generation := s.site.generation, mode := s.egress.mode }

/-- Every search of `t` ran in `s`, under the same context, and the epoch, the generation and the mode are the same. -/
structure State.KeepsSearches (s t : State) : Prop where
  lanes : ∀ l, (t.lane l).state = .searching →
    (s.lane l).state = .searching ∧ (t.lane l).context = (s.lane l).context
  epoch : t.conditions.epoch = s.conditions.epoch
  generation : t.site.generation = s.site.generation
  mode : t.egress.mode = s.egress.mode

/-- What every command but GRANT leaves: the searches kept, or none. -/
def State.Undisturbed (s t : State) : Prop := s.KeepsSearches t ∨ ¬ t.Searching

section

variable {s t u : State}

theorem State.KeepsSearches.of_view (h : t.searchView = s.searchView) : s.KeepsSearches t where
  lanes l searching := by
    have lane : t.lane l = s.lane l := congrArg (fun v : SearchView => Table.get Lane.cleared v.lanes l) h
    rw [← lane]; exact ⟨searching, rfl⟩
  epoch := congrArg SearchView.epoch h
  generation := congrArg SearchView.generation h
  mode := congrArg SearchView.mode h

theorem State.KeepsSearches.trans (h : s.KeepsSearches t) (g : t.KeepsSearches u) : s.KeepsSearches u where
  lanes l searching := by
    obtain ⟨before, context⟩ := g.lanes l searching
    exact ⟨(h.lanes l before).1, context.trans (h.lanes l before).2⟩
  epoch := g.epoch.trans h.epoch
  generation := g.generation.trans h.generation
  mode := g.mode.trans h.mode

theorem State.KeepsSearches.not_searching (h : s.KeepsSearches t) (idle : ¬ s.Searching) : ¬ t.Searching :=
  fun ⟨l, hl, searching⟩ => idle ⟨l, hl, (h.lanes l searching).1⟩

theorem State.KeepsSearches.current (h : s.KeepsSearches t) (current : s.SearchesCurrent) : t.SearchesCurrent := by
  intro l ctx hl searching context
  obtain ⟨before, same⟩ := h.lanes l searching
  rw [h.epoch, h.generation, h.mode]
  exact current l ctx hl before (same ▸ context)

theorem State.Undisturbed.of_view (h : t.searchView = s.searchView) : s.Undisturbed t := .inl (.of_view h)

/-- What is kept since a state is kept since every state of the same view. -/
theorem State.KeepsSearches.since (h : t.KeepsSearches u) (same : t.searchView = s.searchView) : s.KeepsSearches u :=
  (State.KeepsSearches.of_view same).trans h

theorem State.Undisturbed.since (h : t.Undisturbed u) (same : t.searchView = s.searchView) : s.Undisturbed u :=
  h.imp_left (·.since same)

theorem State.Undisturbed.keeping (h : s.Undisturbed t) (g : t.KeepsSearches u) : s.Undisturbed u :=
  h.imp (·.trans g) g.not_searching

theorem State.Undisturbed.current (h : s.Undisturbed t) (current : s.SearchesCurrent) : t.SearchesCurrent := by
  rcases h with keeps | idle
  · exact keeps.current current
  · exact fun l _ hl searching => absurd ⟨l, hl, searching⟩ idle

/-- With the lanes as they were and none SEARCHING, nothing else matters. -/
theorem State.Undisturbed.of_lanes (h : t.lanes = s.lanes) (idle : ¬ s.Searching) : s.Undisturbed t := by
  refine .inr fun ⟨l, hl, searching⟩ => idle ⟨l, hl, ?_⟩
  unfold State.lane at searching ⊢
  rwa [h] at searching

end

/-- What keeps an entry to VALID away from the searches (R15, R21, R161): canonical lanes, searches in VALID and DRAINING
alone, and tables read for a load, in LOADING. -/
structure State.SearchesGuarded (s : State) : Prop where
  lanes : Table.wf .cleared s.lanes = true
  site : s.Searching → s.site.state = .valid ∨ s.site.state = .draining
  reading : s.transfer.state = .readTables → s.site.state = .loading

theorem State.Consistent.searchesGuarded {s : State} (h : s.Consistent) (canonical : s.Canonical) :
    s.SearchesGuarded where
  lanes := canonical.lanes
  site := h.searching
  reading reads := h.loads (h.reading (.inr (.inl reads)))

/-! ### What leaves the view of the searches -/

theorem searchView_foldl {α : Type} {f : State → α → State} (h : ∀ s x, (f s x).searchView = s.searchView)
    (s : State) (l : List α) : (l.foldl f s).searchView = s.searchView := by
  induction l generalizing s with
  | nil => rfl
  | cons x rest ih => exact (ih _).trans (h s x)

section

variable (s : State)

theorem State.dropQueue_searchView : s.dropQueue.searchView = s.searchView :=
  searchView_foldl (f := State.drop .site) (fun _ _ => rfl) s _

theorem State.requeue_searchView (requests : List Request) : (s.requeue requests).searchView = s.searchView :=
  searchView_foldl (f := fun (s : State) (r : Request) => s.setScreen r.screen .queued) (fun _ _ => rfl) s requests

theorem State.trimQueue_searchView : s.trimQueue.searchView = s.searchView :=
  searchView_foldl (f := State.drop .mode) (fun _ _ => rfl) s _

theorem State.takeBack_searchView (requests : List Request) : (s.takeBack requests).searchView = s.searchView := by
  unfold State.takeBack
  split
  · exact (State.trimQueue_searchView _).trans ((State.requeue_searchView _ _).trans
      (searchView_foldl (f := State.drop .site) (fun _ _ => rfl) s _))
  · exact searchView_foldl (f := State.drop .site) (fun _ _ => rfl) s requests

theorem State.proceed_searchView (work : Drain) (cause : SiteCause) : (s.proceed work cause).searchView = s.searchView := by
  cases work <;> rfl

theorem State.leaveValid_searchView (work : Drain) (cause : SiteCause) :
    (s.leaveValid work cause).searchView = s.searchView := by
  unfold State.leaveValid
  dsimp only
  split
  · exact s.dropQueue_searchView
  · exact (State.proceed_searchView _ work cause).trans s.dropQueue_searchView

theorem State.OffersOnly.searchView {s t : State} (h : s.OffersOnly t) : t.searchView = s.searchView := by
  obtain ⟨_, _, _, _, _, rfl⟩ := h
  rfl

theorem State.processChannel_searchView (sample : Nat × Option Nat) :
    (s.processChannel sample).searchView = s.searchView :=
  searchView_foldl (f := State.offer) (fun _ _ => rfl) _ _

theorem State.processCycle_searchView (samples : List (Nat × Option Nat)) :
    (s.processCycle samples).searchView = s.searchView :=
  searchView_foldl State.processChannel_searchView s _

theorem State.judgeSample_searchView (sample : PollCycle → Option Nat) :
    (s.judgeSample sample).searchView = s.searchView := by
  unfold State.judgeSample
  split
  · rfl
  · split
    · dsimp only
      split
      · rfl
      · exact State.processCycle_searchView _ _
    · rfl

theorem SiteStore.setRecord_generation (site : SiteStore) (i : Nat) (r : Record) :
    (site.setRecord i r).generation = site.generation := by
  cases r <;> rfl

theorem SiteStore.setRecords_generation (site : SiteStore) (first : Nat) (records : List Record) :
    (site.setRecords first records).generation = site.generation := by
  induction records generalizing site first with
  | nil => rfl
  | cons r rest ih => exact (ih _ _).trans (site.setRecord_generation first r)

end

/-! ### Lanes that give up their work (R60, R62, R63) -/

section

variable {s : State} (h : Table.wf .cleared s.lanes = true)
include h

theorem State.setLane_keepsSearches (l : Nat) {v : Lane}
    (hv : v.state = .searching → (s.lane l).state = .searching ∧ v.context = (s.lane l).context) :
    s.KeepsSearches (s.setLane l v) where
  lanes m searching := by
    by_cases same : m = l
    · subst same
      have lane : (s.setLane m v).lane m = v := Table.get_set_self _ h _ _
      rw [lane] at searching ⊢
      exact hv searching
    · have lane : (s.setLane l v).lane m = s.lane m := Table.get_set_of_ne _ _ _ same
      rw [lane] at searching ⊢
      exact ⟨searching, rfl⟩
  epoch := rfl
  generation := rfl
  mode := rfl

theorem State.freeLane_keepsSearches (l : Nat) : s.KeepsSearches (s.freeLane l) :=
  State.setLane_keepsSearches h l (fun searching => nomatch searching)

theorem State.storeRecord_keepsSearches (n l : Nat) (r : RouteRecord) : s.KeepsSearches (s.storeRecord n l r) :=
  (State.freeLane_keepsSearches (s := ((s.setSlot n _).setScreen _ _).offer _) h l).since rfl

theorem State.hold_keepsSearches (l : Nat) (r : RouteRecord) : s.KeepsSearches (s.hold l r) :=
  .trans (State.setLane_keepsSearches h l (v := { s.lane l with state := .holding, record := some r })
    fun searching => nomatch searching) (.of_view rfl)

theorem State.askSlot_keepsSearches (l : Nat) (r : RouteRecord) : s.KeepsSearches (s.askSlot l r) := by
  unfold State.askSlot
  split
  · exact State.storeRecord_keepsSearches h _ l r
  · exact State.hold_keepsSearches h l r

theorem State.grantSlot_keepsSearches (n : Nat) : s.KeepsSearches (s.grantSlot n) := by
  unfold State.grantSlot
  split
  · exact .of_view rfl
  next l rest _ =>
    split
    · exact .of_view rfl
    next record _ => exact (State.storeRecord_keepsSearches (s := s.setHolders rest) h n l record).since rfl

theorem State.freeSlot_keepsSearches (n screen : Nat) : s.KeepsSearches (s.freeSlot n screen) :=
  (State.grantSlot_keepsSearches (s := (s.setSlot n none).setScreen screen .idle) h n).since rfl

theorem State.withdraw_keepsSearches (l : Nat) : s.KeepsSearches (s.withdraw l) :=
  (State.freeLane_keepsSearches (s := s.leaveHolders l) h l).since rfl

theorem State.recordComplete_keepsSearches (l : Nat) : s.KeepsSearches (s.recordComplete l) := by
  unfold State.recordComplete
  dsimp only
  split
  · split
    · unfold State.completeSearch
      dsimp only
      have found := State.setLane_keepsSearches h l
        (v := { s.lane l with
          labels := (s.search (s.lane l) ‹_›).1.labels, heap := (s.search (s.lane l) ‹_›).1.heap
          trimmed := (s.search (s.lane l) ‹_›).1.trimmed }) fun searching => ⟨searching, rfl⟩
      split
      · exact found.trans (State.askSlot_keepsSearches (Table.wf_set _ h _ _) l _)
      · exact found.trans (State.askSlot_keepsSearches (Table.wf_set _ h _ _) l _)
    · exact .of_view rfl
  · exact .of_view rfl

theorem State.withdraw_state (l m : Nat) :
    ((s.withdraw l).lane m).state = if m = l then .free else (s.lane m).state := by
  split
  next same =>
    subst same
    exact congrArg Lane.state (Table.get_set_self _ h _ _)
  next other => exact congrArg Lane.state (Table.get_set_of_ne _ _ _ other)

omit h in
theorem State.withdrawAll_state (lanes : List Nat) (m : Nat) : ∀ s : State, Table.wf .cleared s.lanes = true →
    ((lanes.foldl State.withdraw s).lane m).state = if m ∈ lanes then .free else (s.lane m).state := by
  induction lanes with
  | nil => intro s _; rfl
  | cons l rest ih =>
    intro s h
    rw [List.foldl_cons, ih (s.withdraw l) (Table.wf_set _ h _ _), State.withdraw_state h]
    by_cases inRest : m ∈ rest <;> by_cases same : m = l <;> simp [inRest, same]

/-- R96: after a change of mode every lane is FREE. -/
theorem State.handBack_not_searching : ¬ s.handBack.Searching := by
  rintro ⟨l, hl, searching⟩
  have lanes : s.handBack.lanes = (s.workingLanes.foldl State.withdraw s).lanes :=
    congrArg SearchView.lanes (State.takeBack_searchView _ _)
  have free : (s.handBack.lane l).state = .free := by
    unfold State.lane
    rw [lanes]
    change ((s.workingLanes.foldl State.withdraw s).lane l).state = _
    rw [State.withdrawAll_state _ l s h]
    split
    · rfl
    next idle => simpa [State.workingLanes, Config.lanes, hl] using idle
  rw [free] at searching
  cases searching

omit h in
theorem State.abandonDrain_lanes (s : State) : s.abandonDrain.lanes = s.lanes := by
  unfold State.abandonDrain
  split <;> rfl

omit h in
theorem State.offerEgress_not_searching (event : EgressEvent) (idle : ¬ s.Searching) :
    ¬ (s.offerEgress event).Searching := (State.KeepsSearches.of_view rfl).not_searching idle

theorem State.enterEgress_not_searching (cause : EntryCause) : ¬ (s.enterEgress cause).Searching := by
  let entered := s.setEgress { s.egress with mode := .egress, cause := some cause }
  have lanes : (entered.abandonDrain.markQueue true).lanes = s.lanes := entered.abandonDrain_lanes
  exact State.offerEgress_not_searching .entered (State.handBack_not_searching (lanes ▸ h))

theorem State.resume_not_searching : ¬ s.resume.Searching :=
  State.offerEgress_not_searching .resumed (State.handBack_not_searching (s := (s.setEgress _).markQueue false) h)

end

/-! ### Turns and entries to VALID (R22, R107, R111) -/

section

variable (s : State)

theorem State.applyTurn_lanes (cause : TurnCause) : (s.applyTurn cause).lanes = s.lanes := by
  obtain ⟨_, _, _, _, _, _, _, _, turned⟩ := s.applyTurn_frame cause
  rw [turned]

theorem State.enterValid_lanes (cause : SiteCause) : (s.enterValid cause).lanes = s.lanes := by
  rw [s.enterValid_eq cause, State.startTurnTimer_lanes, State.applyTurn_lanes]
  exact congrArg SearchView.lanes (s.entryCaughtUp_offersOnly cause).searchView

theorem State.beginTurn_undisturbed (cause : TurnCause) : s.Undisturbed (s.beginTurn cause) := by
  unfold State.beginTurn
  split
  · exact .of_view rfl
  next idle => exact .of_lanes (s.applyTurn_lanes cause) (by simpa [State.anySearching_iff] using idle)

theorem State.askTurn_undisturbed (cause : TurnCause) : s.Undisturbed (s.askTurn cause) := by
  unfold State.askTurn
  split
  · exact s.beginTurn_undisturbed cause
  · exact .of_view rfl

theorem State.applyStep_undisturbed : s.Undisturbed s.applyStep := by
  unfold State.applyStep
  split
  next cause _ =>
    split
    · exact .of_view rfl
    next idle => exact .of_lanes (s.applyTurn_lanes cause) (by simpa [State.anySearching_iff] using idle)
  · exact .of_view rfl

theorem State.validateLoad_lanes : s.validateLoad.lanes = s.lanes := by
  unfold State.validateLoad
  split
  · rfl
  · exact s.enterValid_lanes .load

theorem State.finishTables_lanes : s.finishTables.lanes = s.lanes := by
  unfold State.finishTables
  dsimp only
  split
  · exact s.validateLoad_lanes
  · rfl

theorem State.readRecord_lanes (table : TableId) (i : Nat) (bytes : List Byte) :
    (s.readRecord table i bytes).lanes = s.lanes := by
  unfold State.readRecord
  dsimp only
  split
  · rfl
  · split
    · rfl
    · exact State.finishTables_lanes _

end

/-! ### The commands -/

/-- The lanes of a load, which reads its tables in LOADING, do not search. -/
theorem State.SearchesGuarded.recordRead {s : State} (g : s.SearchesGuarded) (bytes : List Byte) :
    s.Undisturbed (s.recordRead bytes) := by
  unfold State.recordRead
  split
  next reading _ =>
    split
    · refine .of_lanes (s.readRecord_lanes _ _ bytes) fun searching => ?_
      have := g.site searching
      simp [g.reading reading] at this
    · exact .of_view rfl
  · exact .of_view rfl

theorem State.SearchesGuarded.siteClose {s : State} (g : s.SearchesGuarded) : s.Undisturbed s.siteClose.state := by
  unfold State.siteClose
  split
  · exact .of_view rfl
  · split
    next closes =>
      split
      · refine .of_lanes (s.enterValid_lanes .close) fun searching => ?_
        have := g.site searching
        rcases this with state | state <;> simp [state] at closes
      · exact .of_view rfl
    · exact .of_view rfl

section

variable (s : State)

theorem State.ackStart_searchView : s.ackStart.state.searchView = s.searchView := by
  unfold State.ackStart
  split <;> rfl

theorem State.setParam_searchView (number value : Nat) : (s.setParam number value).state.searchView = s.searchView := by
  unfold State.setParam
  split
  · rfl
  · split <;> rfl

theorem State.getParam_state (number : Nat) : (s.getParam number).state = s := by
  unfold State.getParam
  split <;> rfl

theorem State.siteOpen_searchView : s.siteOpen.state.searchView = s.searchView := by
  unfold State.siteOpen
  split
  · rfl
  · split
    · rfl
    · split
      case h_4 => exact s.leaveValid_searchView _ _
      all_goals rfl

theorem State.siteLoad_searchView (address : Nat) : (s.siteLoad address).state.searchView = s.searchView := by
  unfold State.siteLoad
  split
  · rfl
  · split
    · rfl
    · split
      · rfl
      · split
        case h_4 => exact s.leaveValid_searchView _ _
        all_goals rfl

theorem State.siteDump_searchView (address : Nat) : (s.siteDump address).state.searchView = s.searchView := by
  unfold State.siteDump
  repeat' split
  all_goals rfl

theorem State.tableWrite_searchView (table first : Nat) (bytes : List Byte) :
    (s.tableWrite table first bytes).state.searchView = s.searchView := by
  unfold State.tableWrite
  split
  · rfl
  · split
    · rfl
    · dsimp only
      split
      · rfl
      · split
        · rfl
        · simp only [accept, State.searchView, SiteStore.setRecords_generation]

theorem State.tableRead_state (table first count : Nat) : (s.tableRead table first count).state = s := by
  unfold State.tableRead
  repeat' split
  all_goals rfl

theorem State.condition_searchView (target : Option Target) (value : Nat) :
    (s.condition target value).state.searchView = s.searchView := by
  unfold State.condition
  repeat' split
  all_goals rfl

theorem State.conditionRead_state (target : Option Target) : (s.conditionRead target).state = s := by
  unfold State.conditionRead
  repeat' split
  all_goals rfl

theorem State.turnNow_undisturbed : s.Undisturbed s.turnNow.state := by
  unfold State.turnNow
  split
  · exact .of_view rfl
  · split
    · exact .of_view rfl
    · split
      · exact s.beginTurn_undisturbed .request
      · exact .of_view rfl

theorem State.setClock_undisturbed (second day : Nat) : s.Undisturbed (s.setClock second day).state := by
  unfold State.setClock
  split
  · exact .of_view rfl
  · dsimp only
    unfold accept
    dsimp only
    split
    · exact (State.askTurn_undisturbed _ .schedule).since (State.catchUp_offersOnly _).searchView
    · exact .of_view rfl

theorem State.route_searchView (r : Request) : (s.route r).state.searchView = s.searchView := by
  unfold State.route
  split <;> rfl

theorem State.cancel_undisturbed (h : Table.wf .cleared s.lanes = true) (screen : Nat) :
    s.Undisturbed (s.cancel screen).state := by
  unfold State.cancel
  split
  · exact .of_view rfl
  · split
    · exact .of_view rfl
    · exact .of_view rfl
    next l _ => exact .inl ((State.withdraw_keepsSearches h l).trans (.of_view rfl))
    next n _ => exact .inl (State.freeSlot_keepsSearches h n screen)

theorem State.collect_undisturbed (h : Table.wf .cleared s.lanes = true) (screen : Nat) :
    s.Undisturbed (s.collect screen).state := by
  unfold State.collect
  split
  · exact .of_view rfl
  · split
    next n _ =>
      split
      · exact .inl (State.freeSlot_keepsSearches h n screen)
      · exact .of_view rfl
    · exact .of_view rfl

theorem State.screenStateReply_state (screen : Nat) : (s.screenStateReply screen).state = s := by
  unfold State.screenStateReply
  split <;> rfl

theorem State.flowRead_state (channel : Nat) : (s.flowRead channel).state = s := by
  unfold State.flowRead
  split <;> rfl

theorem State.egressEnter_undisturbed (h : Table.wf .cleared s.lanes = true) : s.Undisturbed s.egressEnter.state := by
  unfold State.egressEnter
  split
  · exact .of_view rfl
  · exact .inr (State.enterEgress_not_searching h .drill)

theorem State.egressResume_undisturbed (h : Table.wf .cleared s.lanes = true) : s.Undisturbed s.egressResume.state := by
  unfold State.egressResume
  split
  · exact .of_view rfl
  · split
    · exact .of_view rfl
    · exact .inr (State.resume_not_searching h)

theorem State.alarmAsserted_undisturbed (h : Table.wf .cleared s.lanes = true) : s.Undisturbed s.alarmAsserted := by
  unfold State.alarmAsserted
  split
  · dsimp only
    split
    · exact .inr (State.enterEgress_not_searching (s := s.takeLevel true) h .alarm)
    · exact .of_view rfl
  · exact .of_view rfl

theorem State.alarmClear_searchView : s.alarmClear.searchView = s.searchView := by
  unfold State.alarmClear
  split
  · dsimp only
    split <;> rfl
  · rfl

theorem State.powerOn_not_searching (rate : BitVec 2) (bootld alarm : Bool) :
    ¬ (s.powerOn rate bootld alarm).Searching := by
  rintro ⟨l, _, searching⟩
  unfold State.powerOn State.bootLoad at searching
  split at searching <;> cases searching

theorem State.softResetEffect_undisturbed : s.Undisturbed s.softResetEffect := by
  unfold State.softResetEffect
  split
  · refine .inr ?_
    rintro ⟨l, _, searching⟩
    have lane : s.softResetAll.lane l = if l < 4 then (s.lane l).softReset else .cleared :=
      Table.get_tabulate _ _ _ _
    rw [lane] at searching
    split at searching <;> cases searching
  · exact .of_view rfl

theorem State.slotGrant_undisturbed (h : Table.wf .cleared s.lanes = true) : s.Undisturbed s.slotGrant := by
  unfold State.slotGrant
  split
  · exact .inl (State.grantSlot_keepsSearches h _)
  · exact .of_view rfl

theorem State.holdExpiry_undisturbed (h : Table.wf .cleared s.lanes = true) (n : Nat) :
    s.Undisturbed (s.holdExpiry n) := by
  unfold State.holdExpiry
  split
  · exact .of_view rfl
  · exact .inl ((State.freeSlot_keepsSearches (s := s.offer _) h n _).since rfl)

theorem State.drainEnd_searchView : s.drainEnd.searchView = s.searchView := by
  unfold State.drainEnd
  split
  · split
    · exact State.proceed_searchView _ _ _
    · rfl
  · rfl

theorem State.turnTimerExpiry_undisturbed : s.Undisturbed s.turnTimerExpiry := by
  unfold State.turnTimerExpiry
  split
  · exact .of_view rfl
  · exact (State.askTurn_undisturbed _ .timer).since rfl

theorem State.minuteBoundary_searchView : s.minuteBoundary.searchView = s.searchView := by
  unfold State.minuteBoundary
  split
  · dsimp only
    split
    · exact (State.offerEntries_offersOnly _ _).searchView
    · rfl
  · rfl

theorem State.sampleTimerExpiry_searchView : s.sampleTimerExpiry.searchView = s.searchView := by
  unfold State.sampleTimerExpiry
  split
  · rfl
  · dsimp only
    split <;> rfl

theorem State.pollSent_searchView : s.pollSent.searchView = s.searchView := by
  unfold State.pollSent
  repeat' split
  all_goals rfl

theorem State.busyClear_searchView : s.busyClear.searchView = s.searchView := by
  unfold State.busyClear State.eraseNext State.programNext
  repeat' split
  all_goals rfl

theorem State.flashTimeout_searchView : s.flashTimeout.searchView = s.searchView := by
  unfold State.flashTimeout
  dsimp only
  repeat' split
  all_goals rfl

theorem State.headerRead_searchView (bytes : List Byte) : (s.headerRead bytes).searchView = s.searchView := by
  unfold State.headerRead State.noteLength
  repeat' split
  all_goals rfl

theorem State.startRepeat_searchView : s.startRepeat.searchView = s.searchView := by
  unfold State.startRepeat
  split <;> rfl

theorem State.assertReset_searchView (rate : BitVec 2) (bootld : Bool) :
    (s.assertReset rate bootld).searchView = s.searchView := by
  unfold State.assertReset State.abortTransfer
  split <;> rfl

theorem State.sync_searchView (bytes : List Byte) : (s.sync bytes).searchView = s.searchView := by
  unfold State.sync
  split <;> rfl

theorem State.judgeLate_searchView (late : Option Byte) : (s.judgeLate late).searchView = s.searchView := by
  unfold State.judgeLate
  split
  · exact s.sync_searchView []
  · rfl

end

/-! ### Frames and events -/

section

variable {s : State}

theorem State.judge_undisturbed {dealt : State → State} (h : s.Undisturbed (dealt s.hunting)) :
    s.Undisturbed (s.judge dealt) := by
  unfold State.judge
  split
  · dsimp only
    split
    · exact .of_view rfl
    · exact h
  · exact .of_view rfl

theorem State.answerError_undisturbed (s : State) (code : ReplyCode) : s.Undisturbed (s.answerError code) :=
  State.judge_undisturbed (.of_view rfl)

/-- A request disturbs the searches no more than its block does. -/
theorem State.SearchesGuarded.take (g : s.SearchesGuarded) (kind : RequestKind) (payload : List Byte)
    {block : State → Answer} (h : ∀ u : State, u.SearchesGuarded → u.Undisturbed (block u).state) :
    s.Undisturbed (s.take kind payload block) := by
  unfold State.take
  split
  · exact s.answerError_undisturbed .badLength
  · refine State.judge_undisturbed ?_
    split
    · exact .of_view rfl
    · split
      · exact .of_view rfl
      · have dealt := h s.hunting ⟨g.lanes, g.site, g.reading⟩
        exact (dealt.keeping (u := (block s.hunting).replied kind) (.of_view rfl)).since rfl

theorem State.event_undisturbed {effect : State → State} (h : s.Undisturbed (effect s)) :
    s.Undisturbed (s.event effect) := by
  unfold State.event
  split
  · exact h
  · exact .of_view rfl

/-- Every command but GRANT leaves the searches as they are, or none. -/
theorem exec_undisturbed (g : s.SearchesGuarded) {c : Instr} (hc : c ≠ .grant) :
    ∃ t, exec c s = .next t ∧ s.Undisturbed t := by
  cases c with
  | powerOnReset rate bootld alarm => exact ⟨_, rfl, .inr (s.powerOn_not_searching rate bootld alarm)⟩
  | ackStart payload => exact ⟨_, rfl, g.take _ _ fun u _ => .of_view u.ackStart_searchView⟩
  | status payload => exact ⟨_, rfl, g.take _ _ fun u _ => .of_view rfl⟩
  | softReset payload => exact ⟨_, rfl, g.take _ _ fun u _ => .of_view rfl⟩
  | softResetEffect => exact ⟨_, rfl, State.event_undisturbed s.softResetEffect_undisturbed⟩
  | setParam payload => exact ⟨_, rfl, g.take _ _ fun u _ => .of_view (u.setParam_searchView _ _)⟩
  | getParam payload => exact ⟨_, rfl, g.take _ _ fun u _ => .of_view (congrArg _ (u.getParam_state _))⟩
  | siteOpen payload => exact ⟨_, rfl, g.take _ _ fun u _ => .of_view u.siteOpen_searchView⟩
  | siteClose payload => exact ⟨_, rfl, g.take _ _ fun _ g => g.siteClose⟩
  | tableWrite payload => exact ⟨_, rfl, g.take _ _ fun u _ => .of_view (u.tableWrite_searchView _ _ _)⟩
  | tableRead payload => exact ⟨_, rfl, g.take _ _ fun u _ => .of_view (congrArg _ (u.tableRead_state _ _ _))⟩
  | siteLoad payload => exact ⟨_, rfl, g.take _ _ fun u _ => .of_view (u.siteLoad_searchView _)⟩
  | siteDump payload => exact ⟨_, rfl, g.take _ _ fun u _ => .of_view (u.siteDump_searchView _)⟩
  | condition payload => exact ⟨_, rfl, g.take _ _ fun u _ => .of_view (u.condition_searchView _ _)⟩
  | conditionRead payload => exact ⟨_, rfl, g.take _ _ fun u _ => .of_view (congrArg _ (u.conditionRead_state _))⟩
  | turnNow payload => exact ⟨_, rfl, g.take _ _ fun u _ => u.turnNow_undisturbed⟩
  | setClock payload => exact ⟨_, rfl, g.take _ _ fun u _ => u.setClock_undisturbed _ _⟩
  | route payload => exact ⟨_, rfl, g.take _ _ fun u _ => .of_view (u.route_searchView _)⟩
  | cancel payload => exact ⟨_, rfl, g.take _ _ fun u g => u.cancel_undisturbed g.lanes _⟩
  | collect payload => exact ⟨_, rfl, g.take _ _ fun u g => u.collect_undisturbed g.lanes _⟩
  | screenState payload => exact ⟨_, rfl, g.take _ _ fun u _ => .of_view (congrArg _ (u.screenStateReply_state _))⟩
  | flowRead payload => exact ⟨_, rfl, g.take _ _ fun u _ => .of_view (congrArg _ (u.flowRead_state _))⟩
  | egressEnter payload => exact ⟨_, rfl, g.take _ _ fun u g => u.egressEnter_undisturbed g.lanes⟩
  | egressResume payload => exact ⟨_, rfl, g.take _ _ fun u g => u.egressResume_undisturbed g.lanes⟩
  | alarmPinChange => exact ⟨_, rfl, State.event_undisturbed (.of_view rfl)⟩
  | alarmAsserted => exact ⟨_, rfl, State.event_undisturbed (s.alarmAsserted_undisturbed g.lanes)⟩
  | alarmClear => exact ⟨_, rfl, State.event_undisturbed (.of_view s.alarmClear_searchView)⟩
  | badCheck bytes =>
    refine ⟨_, rfl, ?_⟩
    split
    · exact .of_view rfl
    · exact s.answerError_undisturbed .badCheck
  | unknownKind kind =>
    refine ⟨_, rfl, ?_⟩
    split
    · exact .of_view rfl
    · exact s.answerError_undisturbed .unknownKind
  | badLength length =>
    refine ⟨_, rfl, ?_⟩
    split
    · exact s.answerError_undisturbed .badLength
    · exact .of_view rfl
  | frameTimeout late =>
    refine ⟨_, rfl, ?_⟩
    split
    · exact (s.answerError_undisturbed .frameTimeout).keeping (.of_view (State.judgeLate_searchView _ late))
    · exact .of_view rfl
  | linkBusy =>
    refine ⟨_, rfl, ?_⟩
    split
    · exact State.judge_undisturbed (.of_view rfl)
    · exact .of_view rfl
  | frameBoundary => exact ⟨_, rfl, State.event_undisturbed (.of_view rfl)⟩
  | startRepeatTimerExpiry => exact ⟨_, rfl, State.event_undisturbed (.of_view s.startRepeat_searchView)⟩
  | grant => exact absurd rfl hc
  | recordComplete lane =>
    exact ⟨_, rfl, State.event_undisturbed (.inl (State.recordComplete_keepsSearches g.lanes _))⟩
  | slotGrant => exact ⟨_, rfl, State.event_undisturbed (s.slotGrant_undisturbed g.lanes)⟩
  | holdTimerExpiry slot => exact ⟨_, rfl, State.event_undisturbed (s.holdExpiry_undisturbed g.lanes _)⟩
  | drainEnd => exact ⟨_, rfl, State.event_undisturbed (.of_view s.drainEnd_searchView)⟩
  | turnTimerExpiry => exact ⟨_, rfl, State.event_undisturbed s.turnTimerExpiry_undisturbed⟩
  | applyStep => exact ⟨_, rfl, State.event_undisturbed s.applyStep_undisturbed⟩
  | tick => exact ⟨_, rfl, State.event_undisturbed (.of_view rfl)⟩
  | minuteBoundary => exact ⟨_, rfl, State.event_undisturbed (.of_view s.minuteBoundary_searchView)⟩
  | sampleTimerExpiry => exact ⟨_, rfl, State.event_undisturbed (.of_view s.sampleTimerExpiry_searchView)⟩
  | pollSent => exact ⟨_, rfl, State.event_undisturbed (.of_view s.pollSent_searchView)⟩
  | counterReply b0 b1 b2 b3 b4 =>
    exact ⟨_, rfl, State.event_undisturbed (.of_view (s.judgeSample_searchView _))⟩
  | replyTimeout => exact ⟨_, rfl, State.event_undisturbed (.of_view (s.judgeSample_searchView _))⟩
  | busyClear => exact ⟨_, rfl, State.event_undisturbed (.of_view s.busyClear_searchView)⟩
  | flashTimeout => exact ⟨_, rfl, State.event_undisturbed (.of_view s.flashTimeout_searchView)⟩
  | headerRead bytes => exact ⟨_, rfl, State.event_undisturbed (.of_view (s.headerRead_searchView bytes))⟩
  | recordRead bytes => exact ⟨_, rfl, State.event_undisturbed (g.recordRead bytes)⟩
  | resetAsserted rate bootld => exact ⟨_, rfl, .of_view (s.assertReset_searchView rate bootld)⟩
  | sync bytes => exact ⟨_, rfl, .of_view (s.sync_searchView bytes)⟩

end

/-! ### GRANT (R43, R92) -/

section

variable {s : State}

/-- R43: a lane's search begins under the present epoch, generation and mode. -/
theorem State.SearchesCurrent.startSearch (current : s.SearchesCurrent) (h : Table.wf .cleared s.lanes = true)
    (l : Nat) (r : Request) : (s.startSearch l r).SearchesCurrent := by
  have begun : (s.setLane l (s.searchingLane l r)).SearchesCurrent := by
    intro m ctx hm searching context
    by_cases same : m = l
    · subst same
      have lane : (s.setLane m (s.searchingLane m r)).lane m = s.searchingLane m r := Table.get_set_self _ h _ _
      rw [lane] at context
      obtain rfl : s.contextOf r = ctx := Option.some.inj context
      exact ⟨rfl, rfl, rfl⟩
    · have lane : (s.setLane l (s.searchingLane l r)).lane m = s.lane m := Table.get_set_of_ne _ _ _ same
      rw [lane] at searching context
      exact current m ctx hm searching context
  have asked (record : RouteRecord) : ((s.setLane l (s.searchingLane l r)).askSlot l record).SearchesCurrent :=
    (State.askSlot_keepsSearches (Table.wf_set _ h _ _) l record).current begun
  unfold State.startSearch
  dsimp only
  split
  · exact asked _
  · split
    · exact asked _
    · exact begun

theorem State.SearchesCurrent.grant (current : s.SearchesCurrent) (h : Table.wf .cleared s.lanes = true) :
    s.grant.SearchesCurrent := by
  unfold State.grant
  split
  · split
    next l place _ _ =>
      unfold State.grantEntry
      split
      · exact current
      next e _ =>
        refine State.SearchesCurrent.startSearch ?_ ?_ l e.request
        · exact current
        · exact h
    · exact current
  · exact current

theorem State.SearchesCurrent.exec_grant (current : s.SearchesCurrent) (h : Table.wf .cleared s.lanes = true) :
    ∃ t, exec .grant s = .next t ∧ t.SearchesCurrent := by
  refine ⟨s.event State.grant, rfl, ?_⟩
  unfold State.event
  split
  · exact current.grant h
  · exact current

theorem State.SearchesCurrent.exec (current : s.SearchesCurrent) (g : s.SearchesGuarded) (c : Instr) :
    ∃ t, exec c s = .next t ∧ t.SearchesCurrent := by
  by_cases grants : c = .grant
  · subst grants
    exact current.exec_grant g.lanes
  · obtain ⟨t, next, undisturbed⟩ := exec_undisturbed g grants
    exact ⟨t, next, undisturbed.current current⟩

end

end Sys2Proof.Machine
end

section

open Sys2Proof Sys2Proof.Machine

/-- Settles O59: GRANT begins a search under the present epoch, generation and mode; every other command leaves the searches
as they are or none (`exec_undisturbed`), since turns apply, sites become VALID and modes change with no lane SEARCHING. -/
theorem searchesRunUnderOneEpoch : Obligations.SearchesRunUnderOneEpoch := by
  intro s t canonical consistent _ current next
  have guarded := consistent.searchesGuarded canonical
  unfold step at next
  split at next
  · cases next
    exact current
  next c rest _ =>
    have taken : ({ s with pending := rest } : State).SearchesCurrent := current
    obtain ⟨t', next', kept⟩ := taken.exec ⟨guarded.lanes, guarded.site, guarded.reading⟩ c
    rw [next'] at next
    cases next
    exact kept

end

section
/-! SUPPORT. Where the requests and records of the screens are (R76, R85): while a command moves one from place to place it
is in hand, in no place, and each move takes an item into the hand or settles one out of it. -/

namespace Sys2Proof.Machine

/-! ### The places of requests and records (R85) -/

/-- What the screens' requests and records are kept in. -/
structure Work where
  dispatcher : RequestDispatcher
  lanes : Table Lane
  store : ResultStore

def State.work (s : State) : Work := { dispatcher := s.dispatcher, lanes := s.lanes, store := s.store }

/-- R41: the lane works on a request of the screen. -/
def Lane.Serves (v : Lane) (i : Nat) : Prop := v.state ≠ .free ∧ ∃ r, v.request = some r ∧ r.screen = i

namespace Work

def screen (w : Work) (i : Nat) : ScreenStatus := Table.get .idle w.dispatcher.screens i
def lane (w : Work) (l : Nat) : Lane := Table.get .cleared w.lanes l
def slot (w : Work) (n : Nat) : Option Slot := Table.get none w.store.slots n
/-- The screens of the queue's entries, in their order. -/
def waiting (w : Work) : List Nat := w.dispatcher.queue.map fun e => e.request.screen

/-- An item of the screen stands in the place that this state of a screen names. -/
def Holds (w : Work) : ScreenStatus → Nat → Prop
  | .idle, _ => False
  | .queued, i => i ∈ w.waiting
  | .active l, i => l < 4 ∧ (w.lane l).Serves i
  | .ready n, i => n < 48 ∧ ∃ h, w.slot n = some h ∧ h.screen = i

/-- The items of the screens in `hand` stand in no place; every other screen has one item at most, where its state
says. -/
structure Tracks (w : Work) (hand : List Nat) : Prop where
  handNumbers : ∀ i ∈ hand, i < 64
  numbers : ∀ p i, w.Holds p i → i < 64
  once : hand.Nodup
  entries : w.waiting.Nodup
  away : ∀ i ∈ hand, ∀ p, ¬ w.Holds p i
  found : ∀ i, i ∉ hand → ∀ p, p ≠ .idle → (w.screen i = p ↔ w.Holds p i)

section

variable {w u : Work} {hand items : List Nat} {p q : ScreenStatus} {i j : Nat}

theorem Holds.ne_idle (h : w.Holds p i) : p ≠ .idle := by
  rintro rfl
  exact h

/-- A lane or a slot holds the item of one screen. -/
theorem Holds.alone (hi : w.Holds p i) (hj : w.Holds p j) (hp : p ≠ .queued) : i = j := by
  cases p with
  | idle => exact hi.elim
  | queued => exact absurd rfl hp
  | active l =>
    obtain ⟨-, -, r, request, rfl⟩ := hi
    obtain ⟨-, -, r', request', rfl⟩ := hj
    cases request.symm.trans request'
    rfl
  | ready n =>
    obtain ⟨-, x, slot, rfl⟩ := hi
    obtain ⟨-, x', slot', rfl⟩ := hj
    cases slot.symm.trans slot'
    rfl

/-- A screen has one item at most. -/
theorem Tracks.only (h : w.Tracks hand) (hp : w.Holds p i) (hq : w.Holds q i) : p = q := by
  have out : i ∉ hand := fun inHand => h.away i inHand p hp
  exact ((h.found i out p hp.ne_idle).mpr hp).symm.trans ((h.found i out q hq.ne_idle).mpr hq)

/-- Emptying a lane or a slot takes the item of its screen, and of no other. -/
theorem Tracks.emptied (h : w.Tracks hand) (hp : w.Holds p i) (place : p ≠ .queued) :
    w.Holds q j ∧ q ≠ p ↔ w.Holds q j ∧ j ∉ [i] := by
  refine and_congr_right fun held => not_congr ⟨?_, fun same => ?_⟩
  · rintro rfl
    exact List.mem_singleton.mpr (held.alone hp place)
  · obtain rfl := List.mem_singleton.mp same
    exact h.only held hp

theorem Tracks.perm (h : w.Tracks hand) (same : hand.Perm items) : w.Tracks items where
  handNumbers i hi := h.handNumbers i (same.mem_iff.mpr hi)
  numbers := h.numbers
  once := same.nodup h.once
  entries := h.entries
  away i hi := h.away i (same.mem_iff.mpr hi)
  found i hi := h.found i (mt same.mem_iff.mp hi)

/-- Items are taken out of their places. -/
theorem Tracks.taken (h : w.Tracks hand) (once : items.Nodup) (held : ∀ i ∈ items, ∃ p, w.Holds p i)
    (entries : u.waiting.Nodup) (screens : ∀ i, u.screen i = w.screen i)
    (holds : ∀ p i, u.Holds p i ↔ w.Holds p i ∧ i ∉ items) : u.Tracks (items ++ hand) where
  handNumbers i hi := by
    rcases List.mem_append.mp hi with taken | before
    · obtain ⟨p, held⟩ := held i taken
      exact h.numbers p i held
    · exact h.handNumbers i before
  numbers p i held := h.numbers p i ((holds p i).mp held).1
  once := List.nodup_append'.mpr ⟨once, h.once, fun i hi before => h.away i before _ (held i hi).choose_spec⟩
  entries := entries
  away := by grind [h.away]
  found := by grind [h.found]

/-- Items in hand are settled in a place, or given up. -/
theorem Tracks.settled (h : w.Tracks (items ++ hand)) (p : ScreenStatus) (entries : u.waiting.Nodup)
    (screens : ∀ i, u.screen i = if i ∈ items then p else w.screen i)
    (holds : ∀ q i, q ≠ .idle → (u.Holds q i ↔ w.Holds q i ∨ q = p ∧ i ∈ items)) : u.Tracks hand where
  handNumbers i hi := h.handNumbers i (List.mem_append_right _ hi)
  numbers q i held := by
    rcases (holds q i held.ne_idle).mp held with before | ⟨-, settled⟩
    · exact h.numbers q i before
    · exact h.handNumbers i (List.mem_append_left _ settled)
  once := (List.nodup_append.mp h.once).2.1
  entries := entries
  away := by grind [h.away, h.once, Holds.ne_idle]
  found := by grind [h.found, h.away]

end

/-! ### Lanes, slots and the holders list (R41, R76 to R78) -/

end Work

/-- R41, R43, R60: what a lane holds goes with its state, and a record is its request's. -/
structure Lane.Sound (v : Lane) : Prop where
  taken : v.state ≠ .free ↔ v.request.isSome = true
  context : v.state = .searching → v.context.isSome = true
  records : v.state = .holding ↔ v.record.isSome = true
  recordScreens : ∀ r q, v.record = some r → v.request = some q → r.screen = q.screen

namespace Work

/-- Tables in canonical form, sound lanes, records in the slots of their screens, and the HOLDING lanes in the holders
list. -/
structure Sound (w : Work) : Prop where
  screens : Table.wf .idle w.dispatcher.screens = true
  lanes : Table.wf .cleared w.lanes = true
  slots : Table.wf none w.store.slots = true
  own : ∀ n h, n < 48 → w.slot n = some h → h.record.screen = h.screen
  lane : ∀ l, l < 4 → (w.lane l).Sound
  holders : ∀ l, l ∈ w.store.holders ↔ l < 4 ∧ (w.lane l).state = .holding
  order : w.store.holders.Nodup

/-- R79: no lane holds while a slot is FREE. -/
def Full (w : Work) : Prop := w.store.holders ≠ [] → ∀ n, n < 48 → (w.slot n).isSome = true

/-- What every change keeps, with the items of some screens in hand. -/
structure Carries (w : Work) (hand : List Nat) : Prop where
  tracks : w.Tracks hand
  sound : w.Sound

/-- What every command keeps: no item is in hand. -/
structure Accounted (w : Work) : Prop extends w.Carries [] where
  full : w.Full

end Work

theorem State.Outstanding.accounted {s : State} (h : s.Outstanding) (canonical : s.Canonical) : s.work.Accounted where
  tracks := 
    have holds (i : Nat) (p : ScreenStatus) (hp : p ≠ .idle) : s.screen i = p ↔ s.work.Holds p i := by
      cases p with
      | idle => exact absurd rfl hp
      | queued => exact (h.queued i).trans List.mem_map.symm
      | active l => exact h.active i l
      | ready n => exact h.ready i n
    { handNumbers := fun _ none => nomatch none
      numbers := fun p i held => h.numbers i ((holds i p held.ne_idle).mpr held ▸ held.ne_idle)
      once := List.nodup_nil
      entries := h.entries
      away := fun _ none => nomatch none
      found := fun i _ => holds i }
  sound :=
    { screens := canonical.screens, lanes := canonical.lanes, slots := canonical.slots, own := h.own
      lane := fun l hl => ⟨h.taken l hl, h.context l hl, h.records l hl, fun r q => h.recordScreens l r q hl⟩
      holders := h.holders, order := h.order }
  full := h.full

theorem Work.Accounted.outstanding {s : State} (h : s.work.Accounted) : s.Outstanding where
  numbers i busy := h.tracks.numbers _ i ((h.tracks.found i List.not_mem_nil _ busy).mp rfl)
  entries := h.tracks.entries
  queued i := (h.tracks.found i List.not_mem_nil .queued nofun).trans List.mem_map
  active i l := h.tracks.found i List.not_mem_nil (.active l) nofun
  ready i n := h.tracks.found i List.not_mem_nil (.ready n) nofun
  own := h.sound.own
  taken l hl := (h.sound.lane l hl).taken
  context l hl := (h.sound.lane l hl).context
  records l hl := (h.sound.lane l hl).records
  recordScreens l r q hl := (h.sound.lane l hl).recordScreens r q
  holders := h.sound.holders
  order := h.sound.order
  full := h.full

/-! ### Taking and settling items -/

section

variable {s : State} {hand : List Nat} {l n : Nat} {p : ScreenStatus} {i : Nat}

theorem State.setScreen_holds (j : Nat) (v : ScreenStatus) : (s.setScreen j v).work.Holds p i ↔ s.work.Holds p i := by
  cases p <;> exact Iff.rfl

theorem State.setLane_holds (h : Table.wf .cleared s.lanes = true) (v : Lane) : (s.setLane l v).work.Holds p i ↔
    s.work.Holds p i ∧ p ≠ .active l ∨ p = .active l ∧ l < 4 ∧ v.Serves i := by
  cases p with
  | idle => exact ⟨False.elim, by simp [Work.Holds]⟩
  | queued =>
    change s.work.Holds .queued i ↔ _
    simp
  | ready n =>
    change s.work.Holds (.ready n) i ↔ _
    simp
  | active m =>
    by_cases same : m = l
    · subst same
      have lane : (s.setLane m v).work.lane m = v := Table.get_set_self _ h _ _
      simp [Work.Holds, lane]
    · have lane : (s.setLane l v).work.lane m = s.work.lane m := Table.get_set_of_ne _ _ _ same
      simp [Work.Holds, lane, same]

theorem State.setSlot_holds (h : Table.wf none s.store.slots = true) (x : Option Slot) :
    (s.setSlot n x).work.Holds p i ↔
      s.work.Holds p i ∧ p ≠ .ready n ∨ p = .ready n ∧ n < 48 ∧ ∃ h, x = some h ∧ h.screen = i := by
  cases p with
  | idle => exact ⟨False.elim, by simp [Work.Holds]⟩
  | queued =>
    change s.work.Holds .queued i ↔ _
    simp
  | active l =>
    change s.work.Holds (.active l) i ↔ _
    simp
  | ready m =>
    by_cases same : m = n
    · subst same
      have slot : (s.setSlot m x).work.slot m = x := Table.get_set_self _ h _ _
      simp [Work.Holds, slot]
    · have slot : (s.setSlot n x).work.slot m = s.work.slot m := Table.get_set_of_ne _ _ _ same
      simp [Work.Holds, slot, same]

/-- A lane written together with the holders list. -/
theorem Work.Sound.setLane (h : s.work.Sound) {v : Lane} (sound : v.Sound) {holders : List Nat} (order : holders.Nodup)
    (listed : ∀ m, m ∈ holders ↔ if m = l then l < 4 ∧ v.state = .holding else m ∈ s.store.holders) :
    ((s.setLane l v).setHolders holders).work.Sound where
  screens := h.screens
  lanes := Table.wf_set _ h.lanes _ _
  slots := h.slots
  own := h.own
  lane m hm := by
    by_cases same : m = l
    · subst same
      have lane : ((s.setLane m v).setHolders holders).work.lane m = v := Table.get_set_self _ h.lanes _ _
      rwa [lane]
    · have lane : ((s.setLane l v).setHolders holders).work.lane m = s.work.lane m := Table.get_set_of_ne _ _ _ same
      rw [lane]
      exact h.lane m hm
  holders m := by
    refine (listed m).trans ?_
    split
    next same =>
      subst same
      have lane : ((s.setLane m v).setHolders holders).work.lane m = v := Table.get_set_self _ h.lanes _ _
      rw [lane]
    next other =>
      have lane : ((s.setLane l v).setHolders holders).work.lane m = s.work.lane m := Table.get_set_of_ne _ _ _ other
      rw [lane]
      exact h.holders m
  order := order

/-- A lane written that neither joins nor leaves the holders list. -/
theorem Work.Sound.setLane_same (h : s.work.Sound) {v : Lane} (sound : v.Sound)
    (same : v.state = .holding ↔ (s.lane l).state = .holding) : (s.setLane l v).work.Sound := by
  refine h.setLane sound h.order fun m => ?_
  split
  next eq =>
    subst eq
    rw [same]
    exact h.holders m
  next => exact Iff.rfl

theorem Work.Sound.setSlot (h : s.work.Sound) {x : Option Slot}
    (own : ∀ y, x = some y → y.record.screen = y.screen) : (s.setSlot n x).work.Sound :=
  { h with
    slots := Table.wf_set _ h.slots _ _
    own := fun m y hm held => by
      by_cases same : m = n
      · subst same
        have slot : (s.setSlot m x).work.slot m = x := Table.get_set_self _ h.slots _ _
        exact own y (slot.symm.trans held)
      · have slot : (s.setSlot n x).work.slot m = s.work.slot m := Table.get_set_of_ne _ _ _ same
        exact h.own m y hm (slot.symm.trans held) }

theorem Work.Sound.setScreen (h : s.work.Sound) (j : Nat) (v : ScreenStatus) : (s.setScreen j v).work.Sound :=
  { h with screens := Table.wf_set _ h.screens _ _ }

theorem Lane.sound_of_free {v : Lane} (state : v.state = .free) (request : v.request = none)
    (record : v.record = none) : v.Sound := by
  constructor <;> simp [state, request, record]

theorem State.screen_setScreen (h : Table.wf .idle s.dispatcher.screens = true) (j : Nat) (v : ScreenStatus) :
    (s.setScreen j v).work.screen i = if i ∈ [j] then v else s.work.screen i := by
  by_cases same : i = j
  · subst same
    exact (Table.get_set_self _ h _ _).trans (if_pos (List.mem_singleton_self i)).symm
  · exact (Table.get_set_of_ne _ _ _ same).trans (if_neg (mt List.mem_singleton.mp same)).symm

/-- R98: the screen of an item in hand becomes IDLE. -/
theorem Work.Carries.dropped (h : s.work.Carries (i :: hand)) : (s.setScreen i .idle).work.Carries hand where
  tracks := h.tracks.settled (items := [i]) .idle h.tracks.entries (fun _ => State.screen_setScreen h.sound.screens i _)
    fun q j hq => by rw [State.setScreen_holds]; simp [hq]
  sound := h.sound.setScreen i .idle

/-- R88: a screen with no item. -/
theorem Work.Carries.atHand (h : s.work.Carries hand) (number : i < 64) (out : i ∉ hand) (idle : s.screen i = .idle) :
    s.work.Carries (i :: hand) where
  tracks :=
    { h.tracks with
      handNumbers := fun j hj => (List.mem_cons.mp hj).elim (fun same => same ▸ number) (h.tracks.handNumbers j)
      once := List.nodup_cons.mpr ⟨out, h.tracks.once⟩
      away := fun j hj p held => by
        rcases List.mem_cons.mp hj with rfl | before
        · exact held.ne_idle (((h.tracks.found j out p held.ne_idle).mpr held).symm.trans idle)
        · exact h.tracks.away j before p held
      found := fun j hj => h.tracks.found j fun before => hj (List.mem_cons_of_mem i before) }
  sound := h.sound

/-- R62, R63: a lane gives its request up. -/
theorem Work.Carries.withdrawn (h : s.work.Carries hand) {q : Request} (hl : l < 4) (busy : (s.lane l).state ≠ .free)
    (request : (s.lane l).request = some q) : (s.withdraw l).work.Carries (q.screen :: hand) where
  tracks := by
    have held : s.work.Holds (.active l) q.screen := ⟨hl, busy, q, request, rfl⟩
    refine h.tracks.taken (List.nodup_singleton _) (fun i same => ⟨_, List.mem_singleton.mp same ▸ held⟩)
      h.tracks.entries (fun _ => rfl) fun p i => ?_
    have freed : (s.withdraw l).work.Holds p i ↔
        (s.setLane l { Lane.cleared with labels := (s.lane l).labels, heap := (s.lane l).heap }).work.Holds p i := by
      cases p <;> exact Iff.rfl
    rw [← h.tracks.emptied held nofun, freed, State.setLane_holds h.sound.lanes]
    simp [Lane.Serves, Lane.cleared]
  sound := h.sound.setLane (Lane.sound_of_free rfl rfl rfl) (h.sound.order.filter _) fun m => by
    split
    next same => simp [same, Lane.cleared]
    next other => simp [other]

/-- R79: a slot's record is taken. -/
theorem Work.Carries.slotEmptied (h : s.work.Carries hand) {x : Slot} (hn : n < 48) (slot : s.slot n = some x) :
    (s.setSlot n none).work.Carries (x.screen :: hand) where
  tracks := by
    have held : s.work.Holds (.ready n) x.screen := ⟨hn, x, slot, rfl⟩
    refine h.tracks.taken (List.nodup_singleton _) (fun i same => ⟨_, List.mem_singleton.mp same ▸ held⟩)
      h.tracks.entries (fun _ => rfl) fun p i => ?_
    rw [← h.tracks.emptied held nofun, State.setSlot_holds h.sound.slots]
    simp
  sound := h.sound.setSlot nofun

/-- R77: a record goes into a FREE slot. -/
theorem Work.Carries.slotFilled {x : Slot} (h : s.work.Carries (x.screen :: hand)) (hn : n < 48)
    (own : x.record.screen = x.screen) (slot : s.slot n = none) :
    ((s.setSlot n (some x)).setScreen x.screen (.ready n)).work.Carries hand where
  tracks := by
    refine h.tracks.settled (items := [x.screen]) (.ready n) h.tracks.entries
      (fun _ => State.screen_setScreen (s := s.setSlot n (some x)) h.sound.screens _ _) fun p i _ => ?_
    rw [State.setScreen_holds, State.setSlot_holds h.sound.slots]
    have empty : ¬ s.work.Holds (.ready n) i := fun ⟨_, _, held, _⟩ => nomatch slot.symm.trans held
    by_cases same : p = .ready n
    · subst same
      simp [empty, hn, eq_comm]
    · simp [same]
  sound := (h.sound.setSlot fun y eq => Option.some.inj eq ▸ own).setScreen _ _

/-- R43: a FREE lane takes a request and searches. -/
theorem Work.Carries.laneTaken (h : s.work.Carries (i :: hand)) (hl : l < 4) (free : (s.lane l).state = .free)
    {v : Lane} (sound : v.Sound) (state : v.state = .searching) {q : Request} (request : v.request = some q)
    (own : q.screen = i) : ((s.setScreen i (.active l)).setLane l v).work.Carries hand where
  tracks := by
    refine h.tracks.settled (items := [i]) (.active l) h.tracks.entries
      (fun _ => State.screen_setScreen h.sound.screens _ _) fun p j _ => ?_
    rw [State.setLane_holds (s := s.setScreen i (.active l)) h.sound.lanes, State.setScreen_holds]
    have empty : ¬ s.work.Holds (.active l) j := fun ⟨_, busy, _⟩ => busy free
    by_cases same : p = .active l
    · subst same
      simp [Lane.Serves, empty, hl, state, request, own, eq_comm]
    · simp [same]
  sound := (h.sound.setScreen i (.active l)).setLane_same sound (by simp [state, free])

/-- A lane goes on with its request. -/
theorem Work.Tracks.laneKept (h : s.work.Tracks hand) (lanes : Table.wf .cleared s.lanes = true) {v : Lane}
    (busy : (s.lane l).state ≠ .free) (still : v.state ≠ .free) (request : v.request = (s.lane l).request) :
    (s.setLane l v).work.Tracks hand := by
  have same (p : ScreenStatus) (i : Nat) : (s.setLane l v).work.Holds p i ↔ s.work.Holds p i := by
    have held : s.work.Holds (.active l) i ↔ l < 4 ∧ v.Serves i := by
      unfold Lane.Serves
      rw [request]
      exact and_congr_right fun _ => and_congr_left fun _ => iff_of_true busy still
    rw [State.setLane_holds lanes]
    by_cases here : p = .active l
    · subst here
      simp [held]
    · simp [here]
  exact h.settled (items := []) .idle h.entries (fun _ => rfl) fun p i _ => by simp [same]

/-! ### The queue (R89, R94, R96, R97) -/

theorem State.setQueue_holds (queue : List QueueEntry) : (s.setQueue queue).work.Holds p i ↔
    s.work.Holds p i ∧ p ≠ .queued ∨ p = .queued ∧ i ∈ queue.map fun e => e.request.screen := by
  cases p with
  | queued => simp [Work.Holds, Work.waiting, State.work]
  | idle => exact ⟨False.elim, by simp [Work.Holds]⟩
  | active l =>
    change s.work.Holds (.active l) i ↔ _
    simp
  | ready n =>
    change s.work.Holds (.ready n) i ↔ _
    simp

/-- Entries leave the queue. -/
theorem Work.Carries.unqueued (h : s.work.Carries hand) {out : List Nat} {queue : List QueueEntry}
    (parts : s.work.waiting.Perm (out ++ queue.map fun e => e.request.screen)) :
    (s.setQueue queue).work.Carries (out ++ hand) where
  tracks := by
    obtain ⟨once, entries, apart⟩ := List.nodup_append'.mp (parts.nodup h.tracks.entries)
    have held (i : Nat) : s.work.Holds .queued i ↔ i ∈ out ∨ i ∈ queue.map fun e => e.request.screen :=
      parts.mem_iff.trans List.mem_append
    refine h.tracks.taken once (fun i hi => ⟨.queued, (held i).mpr (.inl hi)⟩) entries (fun _ => rfl) fun p i => ?_
    rw [State.setQueue_holds]
    by_cases queued : p = .queued
    · subst queued
      have := @apart i
      grind
    · have gone : s.work.Holds p i → i ∉ out := fun place hi =>
        queued (h.tracks.only place ((held i).mpr (.inl hi)))
      simpa [queued] using gone
  sound := { h.sound with }

theorem State.queueScreens_eq (requests : List Request) : ∀ s : State, Table.wf .idle s.dispatcher.screens = true →
    ∃ screens, requests.foldl (fun (s : State) (r : Request) => s.setScreen r.screen .queued) s =
        { s with dispatcher := { s.dispatcher with screens := screens } } ∧ Table.wf .idle screens = true ∧
      ∀ i, Table.get .idle screens i = if i ∈ requests.map Request.screen then .queued else s.screen i := by
  induction requests with
  | nil => exact fun s h => ⟨s.dispatcher.screens, rfl, h, fun i => rfl⟩
  | cons r rest ih =>
    intro s h
    obtain ⟨screens, eq, canonical, get⟩ := ih (s.setScreen r.screen .queued) (Table.wf_set _ h _ _)
    refine ⟨screens, eq, canonical, fun i => (get i).trans ?_⟩
    have first := State.screen_setScreen (i := i) h r.screen .queued
    change (s.setScreen r.screen .queued).screen i = if i ∈ [r.screen] then .queued else s.screen i at first
    rw [first]
    grind

/-- R89, R96: requests in hand join the queue, their screens QUEUED. -/
theorem Work.Carries.queued {requests : List Request} (h : s.work.Carries (requests.map Request.screen ++ hand))
    {queue : List QueueEntry}
    (parts : (queue.map fun e => e.request.screen).Perm (requests.map Request.screen ++ s.work.waiting)) :
    ((requests.foldl (fun (s : State) (r : Request) => s.setScreen r.screen .queued) s).setQueue queue).work.Carries
      hand := by
  obtain ⟨screens, eq, canonical, get⟩ := State.queueScreens_eq requests s h.sound.screens
  rw [eq]
  refine ⟨h.tracks.settled .queued ?_ get fun p i hp => ?_, { h.sound with screens := canonical }⟩
  · have apart : (requests.map Request.screen).Disjoint s.work.waiting := fun i inHand waits =>
      h.tracks.away i (List.mem_append_left _ inHand) .queued waits
    exact parts.symm.nodup
      (List.nodup_append'.mpr ⟨(List.nodup_append'.mp h.tracks.once).1, h.tracks.entries, apart⟩)
  · have same : (State.setQueue { s with dispatcher := { s.dispatcher with screens := screens } } queue).work.Holds
        p i ↔ (s.setQueue queue).work.Holds p i := by cases p <;> exact Iff.rfl
    rw [same, State.setQueue_holds, parts.mem_iff, List.mem_append]
    by_cases queued : p = .queued
    · subst queued
      simp [Work.Holds, or_comm]
    · simp [queued]

/-- R97, R98: requests in hand are dropped. -/
theorem Work.Carries.requestsDropped {requests : List Request}
    (h : s.work.Carries (requests.map Request.screen ++ hand)) (reason : DropReason) :
    (requests.foldl (State.drop reason) s).work.Carries hand := by
  obtain ⟨screens, eq, canonical, idle, kept⟩ := s.drop_all h.sound.screens requests reason
  rw [eq]
  refine ⟨h.tracks.settled .idle h.tracks.entries (fun i => ?_) fun p i hp => ?_,
    { h.sound with screens := canonical }⟩
  · split
    next dropped =>
      obtain ⟨r, hr, rfl⟩ := List.mem_map.mp dropped
      exact idle r hr
    next stays => exact kept i fun r hr same => stays (List.mem_map.mpr ⟨r, hr, same⟩)
  · have same : Work.Holds (State.work { s with
        dispatcher := { s.dispatcher with screens := screens }
        link := s.link.offerAll (requests.map fun r => r.droppedNotice reason) }) p i ↔ s.work.Holds p i := by
      cases p <;> exact Iff.rfl
    simp [same, hp]

theorem State.drop_setQueue (reason : DropReason) (requests : List Request) (queue : List QueueEntry) : ∀ s : State,
    (requests.foldl (State.drop reason) s).setQueue queue = requests.foldl (State.drop reason) (s.setQueue queue) := by
  induction requests with
  | nil => exact fun _ => rfl
  | cons r rest ih => exact fun s => ih (State.drop reason s r)

/-- R96, R97: entries are dropped from the queue. -/
theorem Work.Carries.entriesDropped (h : s.work.Carries hand) {removed kept : List QueueEntry}
    (parts : s.dispatcher.queue.Perm (removed ++ kept)) (reason : DropReason) :
    (((removed.map QueueEntry.request).foldl (State.drop reason) s).setQueue kept).work.Carries hand := by
  rw [State.drop_setQueue]
  refine Work.Carries.requestsDropped (s := s.setQueue kept) ?_ reason
  rw [List.map_map]
  have screens := parts.map fun e => e.request.screen
  rw [List.map_append] at screens
  exact h.unqueued screens

theorem Work.Carries.dropQueue (h : s.work.Carries hand) : s.dropQueue.work.Carries hand :=
  h.entriesDropped (by simp) .site

theorem Work.Carries.trimQueue (h : s.work.Carries hand) : s.trimQueue.work.Carries hand := by
  refine h.entriesDropped ?_ .mode
  have parts := List.take_append_drop Config.queueEntries s.dispatcher.queue
  have order := (List.reverse_perm (s.dispatcher.queue.drop Config.queueEntries)).append_right
    (s.dispatcher.queue.take Config.queueEntries)
  exact (List.Perm.of_eq parts.symm).trans (List.perm_append_comm.trans order.symm)

/-- R96: requests in hand go to the head of the queue. -/
theorem Work.Carries.requeued {requests : List Request} (h : s.work.Carries (requests.map Request.screen ++ hand)) :
    (s.requeue requests).work.Carries hand := by
  obtain ⟨screens, eq, -, -⟩ := State.queueScreens_eq requests s h.sound.screens
  refine h.queued (.of_eq ?_)
  rw [eq, List.map_append, List.map_map]
  rfl

/-- R96: the requests that lanes have handed back are taken, or dropped. -/
theorem Work.Carries.takeBack {requests : List Request} (h : s.work.Carries (requests.map Request.screen)) :
    (s.takeBack requests).work.Carries [] := by
  unfold State.takeBack
  split
  · let fresh := requests.filter fun r => !s.stale r
    have parts : (requests.map Request.screen).Perm ((requests.filter s.stale).map Request.screen ++
        (fresh.map Request.screen ++ [])) := by
      simpa using ((List.filter_append_perm s.stale requests).symm.map Request.screen)
    have dropped := Work.Carries.requestsDropped ⟨h.tracks.perm parts, h.sound⟩ .site
    exact dropped.requeued.trimQueue
  · exact Work.Carries.requestsDropped (by simpa using h) .site

/-! ### Lanes that give up their work (R62, R63, R96) -/

theorem Work.Sound.request (h : s.work.Sound) (hl : l < 4) (busy : (s.lane l).state ≠ .free) :
    ∃ q, (s.lane l).request = some q := Option.isSome_iff_exists.mp ((h.lane l hl).taken.mp busy)

/-- Lanes give their requests up one after the other. -/
theorem Work.Carries.allWithdrawn (lanes : List Nat) : ∀ {s : State} {hand : List Nat}, s.work.Carries hand →
    lanes.Nodup → (∀ l ∈ lanes, l < 4 ∧ (s.lane l).state ≠ .free) →
    (lanes.foldl State.withdraw s).work.Carries
      ((lanes.filterMap fun l => (s.lane l).request).reverse.map Request.screen ++ hand) := by
  induction lanes with
  | nil => exact fun h _ _ => h
  | cons l rest ih =>
    intro s hand h once busy
    obtain ⟨first, once⟩ := List.nodup_cons.mp once
    obtain ⟨hl, working⟩ := busy l List.mem_cons_self
    obtain ⟨q, request⟩ := h.sound.request hl working
    have other (m : Nat) (hm : m ∈ rest) : (s.withdraw l).lane m = s.lane m :=
      Table.get_set_of_ne _ _ _ (ne_of_mem_of_not_mem hm first)
    have after := ih (h.withdrawn hl working request) once fun m hm => by
      rw [other m hm]
      exact busy m (List.mem_cons_of_mem l hm)
    have requests : (rest.filterMap fun m => ((s.withdraw l).lane m).request) =
        rest.filterMap fun m => (s.lane m).request :=
      List.filterMap_congr fun m hm => by rw [other m hm]
    rw [requests] at after
    simpa [request] using after

theorem State.mem_workingLanes : l ∈ s.workingLanes ↔ l < 4 ∧ (s.lane l).state ≠ .free := by
  simp [State.workingLanes, Config.lanes]

/-- R96: every lane is FREE afterwards. -/
theorem State.handBack_free (h : Table.wf .cleared s.lanes = true) (hl : l < 4) :
    (s.handBack.lane l).state = .free := by
  have lanes : s.handBack.lanes = (s.workingLanes.foldl State.withdraw s).lanes :=
    congrArg SearchView.lanes (State.takeBack_searchView _ _)
  have lane : s.handBack.lane l = (s.workingLanes.foldl State.withdraw s).lane l :=
    congrArg (fun t => Table.get Lane.cleared t l) lanes
  rw [lane, State.withdrawAll_state _ l s h]
  split
  · rfl
  next idle =>
    by_contra busy
    exact idle (State.mem_workingLanes.mpr ⟨hl, busy⟩)

theorem Work.Accounted.handBack (h : s.work.Accounted) : s.handBack.work.Accounted := by
  have handed := h.toCarries.allWithdrawn s.workingLanes (List.nodup_range.filter _) fun l => State.mem_workingLanes.mp
  have carries : s.handBack.work.Carries [] := Work.Carries.takeBack ⟨handed.tracks.perm (by simp), handed.sound⟩
  refine ⟨carries, fun waits => ?_⟩
  obtain ⟨l, listed⟩ := List.exists_mem_of_ne_nil _ waits
  obtain ⟨hl, holding⟩ := (carries.sound.holders l).mp listed
  cases holding.symm.trans (State.handBack_free h.sound.lanes hl)

/-! ### Records and slots (R60, R77, R79) -/

theorem filter_ne_of_not_mem {lanes : List Nat} (h : l ∉ lanes) : lanes.filter (fun m => m ≠ l) = lanes :=
  List.filter_eq_self.mpr fun _ hm => decide_eq_true (ne_of_mem_of_not_mem hm h)

theorem State.lowestFreeSlot_spec (h : s.lowestFreeSlot = some n) : n < 48 ∧ s.slot n = none := by
  obtain ⟨free, hn, -⟩ := List.find?_range_eq_some.mp h
  exact ⟨List.mem_range.mp hn, of_decide_eq_true free⟩

theorem State.allOccupied (h : s.lowestFreeSlot = none) {m : Nat} (hm : m < 48) : (s.slot m).isSome = true := by
  have occupied := List.find?_eq_none.mp h m (List.mem_range.mpr hm)
  simpa [Option.isSome_iff_ne_none] using occupied

theorem State.lowestFreeLane_spec (h : s.lowestFreeLane = some l) : l < 4 ∧ (s.lane l).state = .free := by
  obtain ⟨free, hl, -⟩ := List.find?_range_eq_some.mp h
  exact ⟨List.mem_range.mp hl, of_decide_eq_true free⟩

/-- R77: a lane's record goes into a FREE slot; the lane leaves the holders list if it was on it. -/
theorem Work.Carries.stored (h : s.work.Carries hand) {q : Request} {r : RouteRecord} (hl : l < 4)
    (busy : (s.lane l).state ≠ .free) (request : (s.lane l).request = some q) (own : r.screen = q.screen) (hn : n < 48)
    (slot : s.slot n = none) : ((s.leaveHolders l).storeRecord n l r).work.Carries hand := by
  have inHand := h.withdrawn hl busy request
  rw [← own] at inHand
  exact Work.Carries.slotFilled (s := s.withdraw l)
    (x := { record := r, screen := r.screen, hold := s.link.parameters.resultHold }) inHand hn rfl slot

theorem State.storeRecord_full (h : Table.wf none s.store.slots = true) {r : RouteRecord}
    (others : s.store.holders ≠ [] → ∀ m, m < 48 → m ≠ n → (s.slot m).isSome = true) :
    (s.storeRecord n l r).work.Full := by
  intro waits m hm
  have slot : (s.storeRecord n l r).work.slot m = if m = n then
      some { record := r, screen := r.screen, hold := s.link.parameters.resultHold } else s.slot m := by
    split
    next same =>
      subst same
      exact Table.get_set_self _ h _ _
    next other => exact Table.get_set_of_ne _ _ _ other
  rw [slot]
  split
  · rfl
  next other => exact others waits m hm other

theorem Work.Sound.record (h : s.work.Sound) (hl : l < 4) (holding : (s.lane l).state = .holding) :
    ∃ q r, (s.lane l).request = some q ∧ (s.lane l).record = some r ∧ r.screen = q.screen := by
  obtain ⟨q, request⟩ := h.request hl (holding ▸ nofun)
  obtain ⟨r, record⟩ := Option.isSome_iff_exists.mp ((h.lane l hl).records.mp holding)
  exact ⟨q, r, request, record, (h.lane l hl).recordScreens r q record request⟩

/-- R79: a FREE slot is offered to the holders list, with every other slot OCCUPIED while a lane holds. -/
theorem Work.Carries.slotGranted (h : s.work.Carries []) (hn : n < 48) (slot : s.slot n = none)
    (others : s.store.holders ≠ [] → ∀ m, m < 48 → m ≠ n → (s.slot m).isSome = true) :
    (s.grantSlot n).work.Accounted := by
  cases holders : s.store.holders with
  | nil =>
    rw [State.grantSlot_alone n holders]
    exact ⟨h, fun waits => absurd holders waits⟩
  | cons l rest =>
    obtain ⟨hl, holding⟩ := (h.sound.holders l).mp (holders ▸ List.mem_cons_self)
    obtain ⟨q, r, request, record, own⟩ := h.sound.record hl holding
    have first : l ∉ rest := by
      have once := h.sound.order
      change s.store.holders.Nodup at once
      rw [holders] at once
      exact (List.nodup_cons.mp once).1
    have left : s.leaveHolders l = s.setHolders rest := by
      unfold State.leaveHolders
      rw [holders, List.filter_cons_of_neg (by simp), filter_ne_of_not_mem first]
    rw [State.grantSlot_eq holders record]
    refine ⟨left ▸ h.stored hl (holding ▸ nofun) request own hn slot, ?_⟩
    exact State.storeRecord_full (s := s.setHolders rest) h.sound.slots fun _ => others (by simp [holders])

/-- R79, R81, R82, R94: a slot is freed. -/
theorem Work.Accounted.freeSlot (h : s.work.Accounted) {x : Slot} (hn : n < 48) (slot : s.slot n = some x) :
    (s.freeSlot n x.screen).work.Accounted := by
  have emptied := (h.toCarries.slotEmptied hn slot).dropped
  refine emptied.slotGranted hn (Table.get_set_self _ h.sound.slots _ _) fun waits m hm other => ?_
  have same : ((s.setSlot n none).setScreen x.screen .idle).slot m = s.slot m := Table.get_set_of_ne _ _ _ other
  rw [same]
  exact h.full waits m hm

/-- R60, R77: a SEARCHING lane asks for a slot with the record of its request. -/
theorem Work.Accounted.slotAsked (h : s.work.Accounted) {q : Request} {r : RouteRecord} (hl : l < 4)
    (searching : (s.lane l).state = .searching) (request : (s.lane l).request = some q) (own : r.screen = q.screen) :
    (s.askSlot l r).work.Accounted := by
  have unlisted : l ∉ s.store.holders := fun listed => by
    cases searching.symm.trans ((h.sound.holders l).mp listed).2
  have busy : (s.lane l).state ≠ .free := searching ▸ nofun
  unfold State.askSlot
  split
  next n free =>
    obtain ⟨hn, slot⟩ := State.lowestFreeSlot_spec free
    have left : s.leaveHolders l = s := by
      unfold State.leaveHolders
      rw [filter_ne_of_not_mem unlisted]
      rfl
    refine ⟨left ▸ h.toCarries.stored hl busy request own hn slot, ?_⟩
    exact State.storeRecord_full h.sound.slots fun waits m hm _ => h.full waits m hm
  next occupied =>
    refine ⟨⟨?_, ?_⟩, fun _ n hn => State.allOccupied occupied hn⟩
    · have kept := h.tracks.laneKept (v := { s.lane l with state := .holding, record := some r }) h.sound.lanes busy
        nofun rfl
      exact { kept with }
    · refine h.sound.setLane (v := { s.lane l with state := .holding, record := some r }) ?_ ?_ fun m => ?_
      · exact
          { taken := iff_of_true nofun (request ▸ rfl), context := nofun, records := iff_of_true rfl rfl
            recordScreens := fun x y record request' => by
              cases record
              cases request.symm.trans request'
              exact own }
      · exact h.sound.order.append (List.nodup_singleton l) (List.disjoint_singleton.mpr unlisted)
      · by_cases same : m = l
        · simp [same, hl]
        · simp [same, State.setLane]

/-! ### RECORD_COMPLETE, SLOT_GRANT, HOLD_TIMER_EXPIRY and COLLECT (R60, R79, R81, R82) -/

/-- R58: the search writes the lane's tables and its trimmed flag. -/
theorem Work.Accounted.withSearch (h : s.work.Accounted) (hl : l < 4) (busy : (s.lane l).state ≠ .free)
    (f : Frontier) : (s.withSearch l f).work.Accounted where
  tracks := h.tracks.laneKept h.sound.lanes busy busy rfl
  sound := h.sound.setLane_same { h.sound.lane l hl with } Iff.rfl
  full := h.full

theorem Work.Accounted.recordComplete (h : s.work.Accounted) (hl : l < 4) : (s.recordComplete l).work.Accounted := by
  unfold State.recordComplete
  dsimp only
  split
  next searching =>
    split
    next request ctx taken _ =>
      unfold State.completeSearch
      dsimp only
      have searched := h.withSearch hl (searching ▸ nofun) (s.search (s.lane l) ctx).1
      have lane : (s.withSearch l (s.search (s.lane l) ctx).1).lane l = _ := Table.get_set_self _ h.sound.lanes _ _
      split
      · exact searched.slotAsked hl (lane ▸ searching) (lane ▸ taken) rfl
      · exact searched.slotAsked hl (lane ▸ searching) (lane ▸ taken) rfl
    · exact h
  · exact h

theorem Work.Accounted.slotGrant (h : s.work.Accounted) : s.slotGrant.work.Accounted := by
  unfold State.slotGrant
  split
  next n free =>
    obtain ⟨hn, slot⟩ := State.lowestFreeSlot_spec free
    exact h.toCarries.slotGranted hn slot fun waits m hm _ => h.full waits m hm
  · exact h

theorem Work.Accounted.holdExpiry (h : s.work.Accounted) (hn : n < 48) : (s.holdExpiry n).work.Accounted := by
  unfold State.holdExpiry
  split
  · exact h
  next x slot => exact Work.Accounted.freeSlot (s := s.offer _) h hn slot

/-- The slot of a READY screen is its own. -/
theorem Work.Accounted.ready (h : s.work.Accounted) (ready : s.screen i = .ready n) :
    n < 48 ∧ ∃ x, s.slot n = some x ∧ x.screen = i :=
  (h.tracks.found i List.not_mem_nil (.ready n) nofun).mp ready

theorem Work.Accounted.collect (h : s.work.Accounted) (screen : Nat) : (s.collect screen).state.work.Accounted := by
  unfold State.collect
  split
  · exact h
  · split
    next n ready =>
      obtain ⟨hn, x, slot, rfl⟩ := h.ready ready
      rw [slot]
      exact h.freeSlot hn slot
    · exact h

/-! ### ROUTE, GRANT and CANCEL (R88, R92, R94) -/

theorem Work.Accounted.cancel (h : s.work.Accounted) (screen : Nat) : (s.cancel screen).state.work.Accounted := by
  unfold State.cancel
  split
  · exact h
  · split
    · exact h
    next queued =>
      have waits : screen ∈ s.work.waiting := (h.tracks.found screen List.not_mem_nil .queued nofun).mp queued
      refine ⟨(h.toCarries.unqueued (out := [screen]) ?_).dropped, h.full⟩
      have parts := List.perm_cons_erase waits
      rw [h.tracks.entries.erase_eq_filter] at parts
      refine parts.trans (.of_eq (congrArg _ ?_))
      exact List.filter_map.trans (congrArg _ (List.filter_congr fun e _ => by simp [bne, beq_eq_decide]))
    next l active =>
      obtain ⟨hl, busy, q, request, rfl⟩ := (h.tracks.found screen List.not_mem_nil (.active l) nofun).mp active
      refine ⟨(h.toCarries.withdrawn hl busy request).dropped, fun waits => h.full fun empty => waits ?_⟩
      change s.store.holders = [] at empty
      change s.store.holders.filter _ = []
      rw [empty, List.filter_nil]
    next n ready =>
      obtain ⟨hn, x, slot, rfl⟩ := h.ready ready
      exact h.freeSlot hn slot

theorem State.routeRefusal_none {r : Request} (h : s.routeRefusal r = none) :
    r.screen < 64 ∧ s.screen r.screen = .idle := by
  unfold State.routeRefusal State.badScreen Config.screens at h
  grind

theorem Work.Accounted.route (h : s.work.Accounted) (r : Request) : (s.route r).state.work.Accounted := by
  unfold State.route
  split
  · exact h
  next passes =>
    obtain ⟨number, idle⟩ := State.routeRefusal_none passes
    have inHand := h.toCarries.atHand number List.not_mem_nil idle
    have queued := inHand.queued (requests := [r]) (queue := s.dispatcher.queue ++ [s.newEntry r])
      (by rw [List.map_append]; exact List.perm_append_comm)
    exact { queued with full := h.full }

/-- R43, R49, R50: a FREE lane takes a request in hand, and searches, or completes its record at once. -/
theorem Work.Carries.startSearch {q : Request} (h : s.work.Carries [q.screen]) (full : s.work.Full) (hl : l < 4)
    (free : (s.lane l).state = .free) : ((s.setScreen q.screen (.active l)).startSearch l q).work.Accounted := by
  let v := (s.setScreen q.screen (.active l)).searchingLane l q
  have sound : v.Sound := ⟨iff_of_true nofun rfl, fun _ => rfl, iff_of_false nofun nofun, nofun⟩
  have taken : ((s.setScreen q.screen (.active l)).setLane l v).work.Accounted :=
    ⟨h.laneTaken hl free sound rfl rfl rfl, full⟩
  have lane : ((s.setScreen q.screen (.active l)).setLane l v).lane l = v := Table.get_set_self _ h.sound.lanes _ _
  have searching := congrArg Lane.state lane
  have request := congrArg Lane.request lane
  unfold State.startSearch
  dsimp only
  split
  · exact taken.slotAsked hl searching request rfl
  · split
    · exact taken.slotAsked hl searching request rfl
    · exact taken

theorem State.passed_screen (priority : Nat) (e : QueueEntry) :
    (s.passed priority e).request.screen = e.request.screen := by
  unfold State.passed
  split <;> rfl

theorem Work.Accounted.grantEntry (h : s.work.Accounted) (hl : l < 4) (free : (s.lane l).state = .free) (place : Nat) :
    (s.grantEntry l place).work.Accounted := by
  unfold State.grantEntry
  split
  · exact h
  next e entry =>
    dsimp only
    refine Work.Carries.startSearch (q := e.request) (s := s.setQueue _) ?_ h.full hl free
    refine h.toCarries.unqueued (out := [e.request.screen]) ?_
    obtain ⟨inside, get⟩ := List.getElem?_eq_some_iff.mp entry
    have parts : s.dispatcher.queue = s.dispatcher.queue.take place ++ e :: s.dispatcher.queue.drop (place + 1) := by
      rw [← get, ← List.drop_eq_getElem_cons inside, List.take_append_drop]
    have waiting := congrArg (List.map fun e : QueueEntry => e.request.screen) parts
    rw [List.map_append, List.map_cons] at waiting
    have passed : (fun e : QueueEntry => e.request.screen) ∘ s.passed (s.priorityOf e) = fun e => e.request.screen :=
      funext fun x => State.passed_screen _ x
    rw [List.map_append, List.map_map, passed]
    exact (List.Perm.of_eq waiting).trans List.perm_middle

theorem Work.Accounted.grant (h : s.work.Accounted) : s.grant.work.Accounted := by
  unfold State.grant
  split
  · split
    next l place lane _ =>
      obtain ⟨hl, free⟩ := State.lowestFreeLane_spec lane
      exact h.grantEntry hl free place
    · exact h
  · exact h

end

end Sys2Proof.Machine
end

section
/-! SUPPORT. What the commands leave of the requests and records (R76 to R79, R85): most touch none of them. -/

namespace Sys2Proof.Machine

/-! ### What touches no request and no record -/

theorem work_foldl {α : Type} {f : State → α → State} (h : ∀ s x, (f s x).work = s.work) (l : List α) :
    ∀ s : State, (l.foldl f s).work = s.work := by
  induction l with
  | nil => exact fun _ => rfl
  | cons x rest ih => exact fun s => (ih _).trans (h s x)

section

variable (s : State)

theorem State.OffersOnly.work {s t : State} (h : s.OffersOnly t) : t.work = s.work := by
  obtain ⟨_, _, _, _, _, rfl⟩ := h
  rfl

theorem State.proceed_work (work : Drain) (cause : SiteCause) : (s.proceed work cause).work = s.work := by
  cases work <;> rfl

theorem State.drainEnd_work : s.drainEnd.work = s.work := by
  unfold State.drainEnd
  split
  · split
    · exact State.proceed_work _ _ _
    · rfl
  · rfl

theorem State.abandonDrain_work : s.abandonDrain.work = s.work := by
  unfold State.abandonDrain
  split <;> rfl

theorem State.applyTurn_work (cause : TurnCause) : (s.applyTurn cause).work = s.work := by
  obtain ⟨_, _, _, _, _, _, _, _, turned⟩ := s.applyTurn_frame cause
  rw [turned]
  rfl

theorem State.beginTurn_work (cause : TurnCause) : (s.beginTurn cause).work = s.work := by
  unfold State.beginTurn
  split
  · rfl
  · exact s.applyTurn_work cause

theorem State.askTurn_work (cause : TurnCause) : (s.askTurn cause).work = s.work := by
  unfold State.askTurn
  split
  · exact s.beginTurn_work cause
  · rfl

theorem State.turnNow_work : s.turnNow.state.work = s.work := by
  unfold State.turnNow
  split
  · rfl
  · split
    · rfl
    · split
      · exact s.beginTurn_work .request
      · rfl

theorem State.turnTimerExpiry_work : s.turnTimerExpiry.work = s.work := by
  unfold State.turnTimerExpiry
  split
  · rfl
  · exact State.askTurn_work _ .timer

theorem State.applyStep_work : s.applyStep.work = s.work := by
  unfold State.applyStep
  split
  · split
    · rfl
    · exact s.applyTurn_work _
  · rfl

theorem State.setClock_work (second day : Nat) : (s.setClock second day).state.work = s.work := by
  unfold State.setClock accept
  split
  · rfl
  · dsimp only
    split
    · exact (State.askTurn_work _ .schedule).trans (State.catchUp_offersOnly _).work
    · rfl

theorem State.minuteBoundary_work : s.minuteBoundary.work = s.work := by
  unfold State.minuteBoundary
  split
  · dsimp only
    split
    · exact (State.offerEntries_offersOnly _ _).work
    · rfl
  · rfl

theorem State.enterValid_work (cause : SiteCause) : (s.enterValid cause).work = s.work := by
  rw [s.enterValid_eq cause]
  exact (State.applyTurn_work _ .site).trans (s.entryCaughtUp_offersOnly cause).work

theorem State.siteClose_work : s.siteClose.state.work = s.work := by
  unfold State.siteClose
  split
  · rfl
  · split
    · split
      · exact s.enterValid_work .close
      · rfl
    · rfl

theorem State.validateLoad_work : s.validateLoad.work = s.work := by
  unfold State.validateLoad
  split
  · rfl
  · exact s.enterValid_work .load

theorem State.finishTables_work : s.finishTables.work = s.work := by
  unfold State.finishTables
  dsimp only
  split
  · exact s.validateLoad_work
  · rfl

theorem State.readRecord_work (table : TableId) (i : Nat) (bytes : List Byte) :
    (s.readRecord table i bytes).work = s.work := by
  unfold State.readRecord
  dsimp only
  split
  · rfl
  · split
    · rfl
    · exact State.finishTables_work _

theorem State.recordRead_work (bytes : List Byte) : (s.recordRead bytes).work = s.work := by
  unfold State.recordRead
  split
  · split
    · exact s.readRecord_work _ _ bytes
    · rfl
  · rfl

theorem State.headerRead_work (bytes : List Byte) : (s.headerRead bytes).work = s.work := by
  unfold State.headerRead State.noteLength
  repeat' split
  all_goals rfl

theorem State.busyClear_work : s.busyClear.work = s.work := by
  unfold State.busyClear State.eraseNext State.programNext
  repeat' split
  all_goals rfl

theorem State.flashTimeout_work : s.flashTimeout.work = s.work := by
  unfold State.flashTimeout
  dsimp only
  repeat' split
  all_goals rfl

theorem State.siteDump_work (address : Nat) : (s.siteDump address).state.work = s.work := by
  unfold State.siteDump
  repeat' split
  all_goals rfl

theorem State.tableWrite_work (table first : Nat) (bytes : List Byte) :
    (s.tableWrite table first bytes).state.work = s.work := by
  unfold State.tableWrite
  dsimp only
  repeat' split
  all_goals rfl

theorem State.condition_work (target : Option Target) (value : Nat) :
    (s.condition target value).state.work = s.work := by
  unfold State.condition
  repeat' split
  all_goals rfl

theorem State.ackStart_work : s.ackStart.state.work = s.work := by
  unfold State.ackStart
  split <;> rfl

theorem State.setParam_work (number value : Nat) : (s.setParam number value).state.work = s.work := by
  unfold State.setParam
  split
  · rfl
  · split <;> rfl

theorem State.alarmClear_work : s.alarmClear.work = s.work := by
  unfold State.alarmClear
  split
  · dsimp only
    split <;> rfl
  · rfl

theorem State.processChannel_work (sample : Nat × Option Nat) : (s.processChannel sample).work = s.work :=
  work_foldl (f := State.offer) (fun _ _ => rfl) _ _

theorem State.processCycle_work (samples : List (Nat × Option Nat)) : (s.processCycle samples).work = s.work :=
  work_foldl State.processChannel_work _ s

theorem State.judgeSample_work (sample : PollCycle → Option Nat) : (s.judgeSample sample).work = s.work := by
  unfold State.judgeSample
  split
  · rfl
  · split
    · dsimp only
      split
      · rfl
      · exact State.processCycle_work _ _
    · rfl

theorem State.sampleTimerExpiry_work : s.sampleTimerExpiry.work = s.work := by
  unfold State.sampleTimerExpiry
  dsimp only
  repeat' split
  all_goals rfl

theorem State.pollSent_work : s.pollSent.work = s.work := by
  unfold State.pollSent
  repeat' split
  all_goals rfl

theorem State.startRepeat_work : s.startRepeat.work = s.work := by
  unfold State.startRepeat
  split <;> rfl

theorem State.assertReset_work (rate : BitVec 2) (bootld : Bool) : (s.assertReset rate bootld).work = s.work := by
  unfold State.assertReset State.abortTransfer
  split <;> rfl

theorem State.sync_work (bytes : List Byte) : (s.sync bytes).work = s.work := by
  unfold State.sync
  split <;> rfl

theorem State.judgeLate_work (late : Option Byte) : (s.judgeLate late).work = s.work := by
  unfold State.judgeLate
  split
  · exact s.sync_work []
  · rfl

end

/-! ### What drops, hands back and clears them (R14, R66, R84, R96, R99, R152) -/

section

variable {s : State}

theorem Work.Accounted.of_work {t : State} (h : s.work.Accounted) (same : t.work = s.work) : t.work.Accounted :=
  same ▸ h

theorem Work.Accounted.leaveValid (h : s.work.Accounted) (work : Drain) (cause : SiteCause) :
    (s.leaveValid work cause).work.Accounted := by
  have full : s.dropQueue.work.Full := by
    obtain ⟨screens, eq, -⟩ := s.dropQueue_eq h.sound.screens
    rw [eq]
    exact h.full
  have dropped : s.dropQueue.work.Accounted := ⟨h.toCarries.dropQueue, full⟩
  unfold State.leaveValid
  dsimp only
  split
  · exact dropped
  · exact dropped.of_work (State.proceed_work _ work cause)

theorem Work.Accounted.siteOpen (h : s.work.Accounted) : s.siteOpen.state.work.Accounted := by
  unfold State.siteOpen
  split
  · exact h
  · split
    · exact h
    · split
      case h_4 => exact h.leaveValid _ _
      all_goals exact h

theorem Work.Accounted.siteLoad (h : s.work.Accounted) (address : Nat) : (s.siteLoad address).state.work.Accounted := by
  unfold State.siteLoad
  split
  · exact h
  · split
    · exact h
    · split
      · exact h
      · split
        case h_4 => exact h.leaveValid _ _
        all_goals exact h

/-- R90: marking the queue moves no entry. -/
theorem Work.Accounted.markQueue (h : s.work.Accounted) (mark : Bool) : (s.markQueue mark).work.Accounted where
  tracks := by
    have marked := h.toCarries.unqueued (out := [])
      (queue := s.dispatcher.queue.map fun e => { e with egressMark := mark }) (by rw [List.map_map]; exact .refl _)
    exact marked.tracks
  sound := { h.sound with }
  full := h.full

theorem Work.Accounted.enterEgress (h : s.work.Accounted) (cause : EntryCause) :
    (s.enterEgress cause).work.Accounted := by
  let entered := s.setEgress { s.egress with mode := .egress, cause := some cause }
  have abandoned : entered.abandonDrain.work.Accounted := Work.Accounted.of_work (s := s) h entered.abandonDrain_work
  exact (abandoned.markQueue true).handBack

theorem Work.Accounted.resume (h : s.work.Accounted) : s.resume.work.Accounted :=
  (Work.Accounted.markQueue (s := s.setEgress { s.egress with mode := .normal, cause := none }) h false).handBack

theorem Work.Accounted.egressEnter (h : s.work.Accounted) : s.egressEnter.state.work.Accounted := by
  unfold State.egressEnter
  split
  · exact h
  · exact h.enterEgress .drill

theorem Work.Accounted.egressResume (h : s.work.Accounted) : s.egressResume.state.work.Accounted := by
  unfold State.egressResume
  split
  · exact h
  · split
    · exact h
    · exact h.resume

theorem Work.Accounted.alarmAsserted (h : s.work.Accounted) : s.alarmAsserted.work.Accounted := by
  unfold State.alarmAsserted
  split
  · dsimp only
    split
    · exact Work.Accounted.enterEgress (s := s.takeLevel true) h .alarm
    · exact h
  · exact h

/-- R66, R84, R99: a reset leaves no request and no record. -/
theorem Work.Accounted.of_cleared {w : Work} (dispatcher : w.dispatcher = { screens := [], queue := [] })
    (store : w.store = { slots := [], holders := [] }) (lanes : Table.wf .cleared w.lanes = true)
    (free : ∀ l, (w.lane l).state = .free ∧ (w.lane l).request = none ∧ (w.lane l).record = none) : w.Accounted := by
  obtain ⟨_, _, _⟩ := w
  cases dispatcher
  cases store
  have nothing : ∀ p i, ¬ Work.Holds _ p i
    | .idle, _ => id
    | .queued, _ => List.not_mem_nil
    | .active l, _ => fun ⟨_, busy, _⟩ => busy (free l).1
    | .ready _, _ => fun ⟨_, _, slot, _⟩ => nomatch slot
  exact
    { tracks :=
        { handNumbers := nofun, numbers := fun p i held => (nothing p i held).elim, once := .nil, entries := .nil
          away := nofun, found := fun i _ p hp => iff_of_false (Ne.symm hp) (nothing p i) }
      sound :=
        { screens := rfl, lanes := lanes, slots := rfl, own := nofun
          lane := fun l _ => Lane.sound_of_free (free l).1 (free l).2.1 (free l).2.2
          holders := fun l => iff_of_false nofun fun holding => nomatch (free l).1.symm.trans holding.2
          order := .nil }
      full := fun waits => absurd rfl waits }

theorem State.powerOn_accounted (s : State) (rate : BitVec 2) (bootld alarm : Bool) :
    (s.powerOn rate bootld alarm).work.Accounted := by
  have cleared : (s.powerOn rate bootld alarm).work = State.reset.work := by
    unfold State.powerOn State.bootLoad
    split <;> rfl
  rw [cleared]
  exact .of_cleared rfl rfl rfl fun _ => ⟨rfl, rfl, rfl⟩

theorem Work.Accounted.softResetEffect (h : s.work.Accounted) : s.softResetEffect.work.Accounted := by
  unfold State.softResetEffect
  split
  · refine .of_cleared rfl rfl (Table.wf_tabulate _ _ _) fun l => ?_
    have lane : s.softResetAll.work.lane l = if l < 4 then (s.lane l).softReset else .cleared :=
      Table.get_tabulate _ _ _ _
    rw [lane]
    split <;> exact ⟨rfl, rfl, rfl⟩
  · exact h

/-! ### Frames and events -/

theorem Work.Accounted.judge (h : s.work.Accounted) {dealt : State → State}
    (dealtWith : (dealt s.hunting).work.Accounted) : (s.judge dealt).work.Accounted := by
  unfold State.judge
  split
  · dsimp only
    split
    · exact h
    · exact dealtWith
  · exact h

theorem Work.Accounted.answerError (h : s.work.Accounted) (code : ReplyCode) : (s.answerError code).work.Accounted :=
  h.judge h

/-- A request is accounted for as its block does. -/
theorem Work.Accounted.take (h : s.work.Accounted) (kind : RequestKind) (payload : List Byte) {block : State → Answer}
    (dealt : ∀ u : State, u.work.Accounted → (block u).state.work.Accounted) :
    (s.take kind payload block).work.Accounted := by
  unfold State.take
  split
  · exact h.answerError .badLength
  · refine h.judge ?_
    split
    · exact h
    · split
      · exact h
      · exact dealt s.hunting h

/-- A request whose block touches no request and no record. -/
theorem Work.Accounted.takeSame (h : s.work.Accounted) (kind : RequestKind) (payload : List Byte)
    {block : State → Answer} (same : ∀ u : State, (block u).state.work = u.work) :
    (s.take kind payload block).work.Accounted :=
  h.take kind payload fun u hu => hu.of_work (same u)

theorem Work.Accounted.event (h : s.work.Accounted) {effect : State → State} (dealt : (effect s).work.Accounted) :
    (s.event effect).work.Accounted := by
  unfold State.event
  split
  · exact dealt
  · exact h

theorem Work.Accounted.eventSame (h : s.work.Accounted) {effect : State → State} (same : (effect s).work = s.work) :
    (s.event effect).work.Accounted := h.event (h.of_work same)

theorem Work.Accounted.exec (h : s.work.Accounted) (c : Instr) : ∃ t, exec c s = .next t ∧ t.work.Accounted := by
  cases c with
  | powerOnReset rate bootld alarm => exact ⟨_, rfl, s.powerOn_accounted rate bootld alarm⟩
  | ackStart payload => exact ⟨_, rfl, h.takeSame _ _ State.ackStart_work⟩
  | status payload => exact ⟨_, rfl, h.takeSame _ _ fun _ => rfl⟩
  | softReset payload => exact ⟨_, rfl, h.takeSame _ _ fun _ => rfl⟩
  | softResetEffect => exact ⟨_, rfl, h.event h.softResetEffect⟩
  | setParam payload => exact ⟨_, rfl, h.takeSame _ _ fun u => u.setParam_work _ _⟩
  | getParam payload => exact ⟨_, rfl, h.takeSame _ _ fun u => congrArg State.work (u.getParam_state _)⟩
  | siteOpen payload => exact ⟨_, rfl, h.take _ _ fun _ hu => hu.siteOpen⟩
  | siteClose payload => exact ⟨_, rfl, h.takeSame _ _ State.siteClose_work⟩
  | tableWrite payload => exact ⟨_, rfl, h.takeSame _ _ fun u => u.tableWrite_work _ _ _⟩
  | tableRead payload => exact ⟨_, rfl, h.takeSame _ _ fun u => congrArg State.work (u.tableRead_state _ _ _)⟩
  | siteLoad payload => exact ⟨_, rfl, h.take _ _ fun _ hu => hu.siteLoad _⟩
  | siteDump payload => exact ⟨_, rfl, h.takeSame _ _ fun u => u.siteDump_work _⟩
  | condition payload => exact ⟨_, rfl, h.takeSame _ _ fun u => u.condition_work _ _⟩
  | conditionRead payload => exact ⟨_, rfl, h.takeSame _ _ fun u => congrArg State.work (u.conditionRead_state _)⟩
  | turnNow payload => exact ⟨_, rfl, h.takeSame _ _ State.turnNow_work⟩
  | setClock payload => exact ⟨_, rfl, h.takeSame _ _ fun u => u.setClock_work _ _⟩
  | route payload => exact ⟨_, rfl, h.take _ _ fun _ hu => hu.route _⟩
  | cancel payload => exact ⟨_, rfl, h.take _ _ fun _ hu => hu.cancel _⟩
  | collect payload => exact ⟨_, rfl, h.take _ _ fun _ hu => hu.collect _⟩
  | screenState payload => exact ⟨_, rfl, h.takeSame _ _ fun u => congrArg State.work (u.screenStateReply_state _)⟩
  | flowRead payload => exact ⟨_, rfl, h.takeSame _ _ fun u => congrArg State.work (u.flowRead_state _)⟩
  | egressEnter payload => exact ⟨_, rfl, h.take _ _ fun _ hu => hu.egressEnter⟩
  | egressResume payload => exact ⟨_, rfl, h.take _ _ fun _ hu => hu.egressResume⟩
  | alarmPinChange => exact ⟨_, rfl, h.eventSame rfl⟩
  | alarmAsserted => exact ⟨_, rfl, h.event h.alarmAsserted⟩
  | alarmClear => exact ⟨_, rfl, h.eventSame s.alarmClear_work⟩
  | badCheck bytes =>
    refine ⟨_, rfl, ?_⟩
    split
    · exact h
    · exact h.answerError .badCheck
  | unknownKind kind =>
    refine ⟨_, rfl, ?_⟩
    split
    · exact h
    · exact h.answerError .unknownKind
  | badLength length =>
    refine ⟨_, rfl, ?_⟩
    split
    · exact h.answerError .badLength
    · exact h
  | frameTimeout late =>
    refine ⟨_, rfl, ?_⟩
    split
    · exact (h.answerError .frameTimeout).of_work (State.judgeLate_work _ late)
    · exact h
  | linkBusy =>
    refine ⟨_, rfl, ?_⟩
    split
    · exact h.judge h
    · exact h
  | frameBoundary => exact ⟨_, rfl, h.eventSame rfl⟩
  | startRepeatTimerExpiry => exact ⟨_, rfl, h.eventSame s.startRepeat_work⟩
  | grant => exact ⟨_, rfl, h.event h.grant⟩
  | recordComplete lane => exact ⟨_, rfl, h.event (h.recordComplete lane.isLt)⟩
  | slotGrant => exact ⟨_, rfl, h.event h.slotGrant⟩
  | holdTimerExpiry slot => exact ⟨_, rfl, h.event (h.holdExpiry slot.isLt)⟩
  | drainEnd => exact ⟨_, rfl, h.eventSame s.drainEnd_work⟩
  | turnTimerExpiry => exact ⟨_, rfl, h.eventSame s.turnTimerExpiry_work⟩
  | applyStep => exact ⟨_, rfl, h.eventSame s.applyStep_work⟩
  | tick => exact ⟨_, rfl, h.eventSame rfl⟩
  | minuteBoundary => exact ⟨_, rfl, h.eventSame s.minuteBoundary_work⟩
  | sampleTimerExpiry => exact ⟨_, rfl, h.eventSame s.sampleTimerExpiry_work⟩
  | pollSent => exact ⟨_, rfl, h.eventSame s.pollSent_work⟩
  | counterReply b0 b1 b2 b3 b4 => exact ⟨_, rfl, h.eventSame (s.judgeSample_work _)⟩
  | replyTimeout => exact ⟨_, rfl, h.eventSame (s.judgeSample_work _)⟩
  | busyClear => exact ⟨_, rfl, h.eventSame s.busyClear_work⟩
  | flashTimeout => exact ⟨_, rfl, h.eventSame s.flashTimeout_work⟩
  | headerRead bytes => exact ⟨_, rfl, h.eventSame (s.headerRead_work bytes)⟩
  | recordRead bytes => exact ⟨_, rfl, h.eventSame (s.recordRead_work bytes)⟩
  | resetAsserted rate bootld => exact ⟨_, rfl, h.of_work (s.assertReset_work rate bootld)⟩
  | sync bytes => exact ⟨_, rfl, h.of_work (s.sync_work bytes)⟩

end

end Sys2Proof.Machine
end

section

open Sys2Proof Sys2Proof.Machine

/-- Settles O58: an item that a command moves is in hand between its places, so that each screen keeps one at most
(`Work.Tracks`); every command leaves none in hand (`Work.Accounted.exec`). -/
theorem everyRequestIsAccountedFor : Obligations.EveryRequestIsAccountedFor := by
  intro s t canonical outstanding next
  have accounted := outstanding.accounted canonical
  unfold step at next
  split at next
  · cases next
    exact outstanding
  next c rest _ =>
    have taken : ({ s with pending := rest } : State).work.Accounted := accounted
    obtain ⟨t', next', kept⟩ := taken.exec c
    rw [next'] at next
    cases next
    exact kept.outstanding

end

section
/-! SUPPORT. Headings, turns and legs (R68 to R72): the own leg of each traversal of a route, and the last step of
condensing. -/

namespace Sys2Proof.Machine

section

variable (s : State)

/-! ### Headings and turns (R68, R69) -/

/-- R69: the heading before each traversal of a route: the facing for the first, and the heading of the traversal before
it for every other. -/
def State.headingBefore (facing : Option Nat) (route : List Traversal) : Nat → Option Nat
  | 0 => facing
  | i + 1 => route[i]?.bind fun t => (s.edge t.edge).headingOf t.ab

theorem State.headingBefore_eq (facing : Option Nat) (route : List Traversal) (i : Nat) :
    s.headingBefore facing route i =
      if i = 0 then facing else route[i - 1]?.bind fun t => (s.edge t.edge).headingOf t.ab := by
  cases i <;> rfl

theorem turnOf_some {before new : Nat} (h : before < 8) :
    ∃ turn, turn < 8 ∧ turnOf (some before) (some new) = some turn ∧ (before + turn) % 8 = new % 8 :=
  ⟨(new + 8 - before) % 8, Nat.mod_lt _ (by decide), rfl, by omega⟩

theorem turnOf_none {before new : Option Nat} (h : new = none ∨ before = none) : turnOf before new = none := by
  rcases h with rfl | rfl
  · cases before <;> rfl
  · rfl

/-! ### Own legs (R69, R70) -/

theorem stoppedFlag_iff (stored resolved : EdgeClass) : stoppedFlag stored resolved = true ↔
    (stored = .escalator ∧ resolved = .stairs) ∨ (stored = .travelator ∧ resolved = .walk) := by
  simp [stoppedFlag]

theorem legKindOf_eq (cls : EdgeClass) (fromFloor toFloor : Nat) : legKindOf cls fromFloor toFloor = match cls with
    | .walk => .walk
    | .door => .door
    | .travelator => .travelator
    | .stairs => if fromFloor < toFloor then .stairsUp else .stairsDown
    | .escalator => if fromFloor < toFloor then .escalatorUp else .escalatorDown
    | .elevator => if fromFloor < toFloor then .elevatorUp else .elevatorDown := by
  cases cls <;> rfl

@[simp] theorem State.ownLegs_length (before : Option Nat) (route : List Traversal) :
    (s.ownLegs before route).length = route.length := by
  induction route generalizing before with
  | nil => rfl
  | cons t rest ih => exact congrArg (· + 1) (ih _)

/-- Each traversal's own leg is the leg it starts after the heading before it. -/
theorem State.ownLegs_getElem? (before : Option Nat) (route : List Traversal) (i : Nat) :
    (s.ownLegs before route)[i]? = route[i]?.map (s.legOf (s.headingBefore before route i)) := by
  induction route generalizing before i with
  | nil => rfl
  | cons t rest ih =>
    cases i with
    | zero => rfl
    | succ i =>
      have same : s.headingBefore (s.legOf before t).heading rest i = s.headingBefore before (t :: rest) (i + 1) := by
        cases i <;> rfl
      exact same ▸ ih _ i

theorem State.ownLegs_concat (before : Option Nat) (done : List Traversal) (t : Traversal) :
    ∃ leg, s.ownLegs before (done ++ [t]) = s.ownLegs before done ++ [leg] := by
  induction done generalizing before with
  | nil => exact ⟨s.legOf before t, rfl⟩
  | cons x rest ih =>
    obtain ⟨leg, eq⟩ := ih (s.legOf before x).heading
    exact ⟨leg, congrArg (s.legOf before x :: ·) eq⟩

/-! ### Condensing (R71) -/

theorem mergesInto_iff (current next : Leg) : mergesInto current next = true ↔
    current.kind = .walk ∧ next.kind = .walk ∧ next.turn = some 0 ∧ current.landmark = none := by
  simp [mergesInto, and_assoc]

/-- The last traversal's own leg merges into the last leg before it, or follows it. -/
theorem State.condense_concat {facing : Nat} {done : List Traversal} {t : Traversal} {leg current : Leg}
    {earlier : List Leg} (last : (s.ownLegs (some facing) (done ++ [t])).getLast? = some leg)
    (before : s.condense facing done = earlier ++ [current]) : s.condense facing (done ++ [t]) =
      if mergesInto current leg then earlier ++ [current.merged leg] else earlier ++ [current, leg] := by
  obtain ⟨own, eq⟩ := s.ownLegs_concat (some facing) done t
  obtain rfl : own = leg := by simpa [eq] using last
  have joined : (s.ownLegs (some facing) done).foldl joinLeg [] = current :: earlier.reverse := by
    simpa [State.condense] using congrArg List.reverse before
  unfold State.condense
  rw [eq, List.foldl_append, joined]
  simp only [List.foldl_cons, List.foldl_nil, joinLeg]
  split <;> simp

/-! ### The leg-count check (R72) -/

theorem State.checkLegs_of_le (target : Nat) {legs : List Leg} (h : legs.length ≤ 40) :
    s.checkLegs target legs = (legs, false) := if_pos h

theorem State.checkLegs_of_lt (target : Nat) {legs : List Leg} (h : 40 < legs.length) :
    s.checkLegs target legs = (legs.take 39 ++ [s.onwardLeg target (legs.drop 39)], true) := if_neg (Nat.not_le.mpr h)

theorem State.onwardLeg_cons (target : Nat) (first : Leg) (rest : List Leg) : s.onwardLeg target (first :: rest) =
    { kind := .onward, stopped := false, turn := first.turn, heading := first.heading
      distance := ((first :: rest).map Leg.distance).sum, time := ((first :: rest).map Leg.time).sum
      endNode := target, endFloor := (s.node target).floor, landmark := (s.node target).landmark } := rfl

end

end Sys2Proof.Machine
end

section

open Sys2Proof Sys2Proof.Machine

/-- Settles O48: each traversal's own leg (`State.ownLegs_getElem?`), the last step of condensing
(`State.condense_concat`), and the check of the leg count. -/
theorem legsFollowTheRoute : Obligations.LegsFollowTheRoute := by
  intro s facing target route headingOf floor own
  refine ⟨s.ownLegs_length _ _, fun i t traversed => ?_, ?_, ?_, ?_, fun legs => ⟨s.checkLegs_of_le target, ?_⟩⟩
  · have before := s.headingBefore_eq (some facing) route i
    refine ⟨s.legOf (s.headingBefore (some facing) route i) t, ?_, rfl, fun new old turned less heading => ?_,
      fun absent => ?_, stoppedFlag_iff _ _, legKindOf_eq _ _ _, rfl, rfl, rfl, rfl, rfl⟩
    · exact (s.ownLegs_getElem? _ _ _).trans (congrArg _ traversed)
    · obtain ⟨turn, small, eq, sum⟩ := turnOf_some (new := new) less
      refine ⟨turn, small, ?_, sum⟩
      rw [← eq, ← turned, ← heading]
      exact congrArg (turnOf · _) before
    · refine turnOf_none (absent.imp_right fun ⟨later, vertical⟩ => ?_)
      exact before.trans ((if_neg later).trans vertical)
  · rintro rfl
    rfl
  · rintro t rfl
    rfl
  · rintro done t leg earlier current rfl last before landmark
    have condensed := s.condense_concat last before
    have merges := mergesInto_iff current leg
    rw [landmark] at merges
    refine ⟨fun plain => ?_, fun other => ?_⟩
    · exact condensed.trans (if_pos (merges.mpr plain))
    · exact condensed.trans (if_neg (mt merges.mp other))
  · intro fortieth rest many dropped
    rw [s.checkLegs_of_lt target many, dropped, s.onwardLeg_cons]

end

section
/-! SUPPORT. COLLECT, the expiry of a hold timer and SLOT_GRANT (R79, R81, R82), and the bytes of a record (R179). -/

namespace Sys2Proof.Machine

/-! ### Fields one after the other (R179) -/

section

variable (n k : Nat) (rest : List Byte)

theorem drop_le8 : (le8 n ++ rest).drop (k + 1) = rest.drop k := rfl
theorem drop_le16 : (le16 n ++ rest).drop (k + 2) = rest.drop k := rfl
theorem drop_le32 : (le32 n ++ rest).drop (k + 4) = rest.drop k := rfl

theorem ofLe_take_le8 : ofLe ((le8 n ++ rest).take 1) = n % 256 := by
  simp [le8, ofLe]

theorem ofLe_take_le16 : ofLe ((le16 n ++ rest).take 2) = n % 65536 := by
  simp [le16, ofLe]
  omega

theorem ofLe_take_le32 : ofLe ((le32 n ++ rest).take 4) = n % 4294967296 := by
  simp [le32, ofLe]
  omega

end

/-! ### The bytes of legs and records (R179) -/

theorem Leg.bytes_length (leg : Leg) : leg.bytes.length = 18 := rfl

/-- Each field of a leg reads back, as far as its bytes hold it. -/
theorem Leg.read_bytes (leg : Leg) (rest : List Byte) :
    byteAt (leg.bytes ++ rest) 0 = leg.kind.code % 256 ∧
    byteAt (leg.bytes ++ rest) 1 = flagCode leg.stopped % 256 ∧
    byteAt (leg.bytes ++ rest) 2 = headingCode leg.turn % 256 ∧
    byteAt (leg.bytes ++ rest) 3 = headingCode leg.heading % 256 ∧
    longAt (leg.bytes ++ rest) 4 = leg.distance % 4294967296 ∧
    longAt (leg.bytes ++ rest) 8 = leg.time % 4294967296 ∧
    wordAt (leg.bytes ++ rest) 12 = leg.endNode % 65536 ∧
    wordAt (leg.bytes ++ rest) 14 = leg.landmark.getD 65535 % 65536 ∧
    byteAt (leg.bytes ++ rest) 16 = leg.endFloor % 256 ∧
    byteAt (leg.bytes ++ rest) 17 = 0 := by
  simp only [Leg.bytes, List.append_assoc, opt16, byteAt, wordAt, longAt, drop_le8, drop_le16, drop_le32, List.drop_zero,
    ofLe_take_le8, ofLe_take_le16, ofLe_take_le32, and_self]

section

variable (r : RouteRecord)

/-- Each field of a record reads back, as far as its bytes hold it. -/
theorem RouteRecord.read_bytes :
    wordAt r.bytes 0 = r.tag % 65536 ∧
    byteAt r.bytes 2 = r.screen % 256 ∧
    byteAt r.bytes 3 = r.status.code % 256 ∧
    wordAt r.bytes 4 = r.destination % 65536 ∧
    byteAt r.bytes 6 = r.category % 256 ∧
    byteAt r.bytes 7 = r.flags % 256 ∧
    byteAt r.bytes 8 = r.reached.getD 255 % 256 ∧
    byteAt r.bytes 9 = (r.target.map Prod.snd).getD 255 % 256 ∧
    wordAt r.bytes 10 = (r.target.map Prod.fst).getD 65535 % 65536 ∧
    longAt r.bytes 12 = r.totalTime % 4294967296 ∧
    longAt r.bytes 16 = r.seconds % 4294967296 ∧
    wordAt r.bytes 20 = r.minutes % 65536 ∧
    longAt r.bytes 22 = r.distance % 4294967296 ∧
    wordAt r.bytes 26 = r.epoch.toNat ∧
    wordAt r.bytes 28 = r.generation.toNat ∧
    byteAt r.bytes 30 = r.legs.length % 256 ∧
    byteAt r.bytes 31 = 0 := by
  have epoch : r.epoch.toNat % 65536 = r.epoch.toNat := Nat.mod_eq_of_lt r.epoch.isLt
  have generation : r.generation.toNat % 65536 = r.generation.toNat := Nat.mod_eq_of_lt r.generation.isLt
  simp only [RouteRecord.bytes, List.append_assoc, opt8, opt16, byteAt, wordAt, longAt, drop_le8, drop_le16, drop_le32,
    List.drop_zero, ofLe_take_le8, ofLe_take_le16, ofLe_take_le32, epoch, generation, and_self]

theorem RouteRecord.drop_header : r.bytes.drop 32 = r.legs.flatMap Leg.bytes := by
  simp only [RouteRecord.bytes, List.append_assoc, opt8, opt16, drop_le8, drop_le16, drop_le32, List.drop_zero]

theorem RouteRecord.bytes_length : r.bytes.length = 32 + 18 * r.legs.length := by
  have legs : (r.legs.flatMap Leg.bytes).length = 18 * r.legs.length := by
    induction r.legs with
    | nil => rfl
    | cons leg rest ih =>
      rw [List.flatMap_cons, List.length_append, ih, Leg.bytes_length, List.length_cons]
      omega
  simp [RouteRecord.bytes, opt8, opt16, le8, le16, le32, legs]
  omega

/-- The legs lie one after the other, 18 bytes each. -/
theorem drop_legs (legs : List Leg) (i : Nat) {leg : Leg} (h : legs[i]? = some leg) :
    ∃ rest, (legs.flatMap Leg.bytes).drop (18 * i) = leg.bytes ++ rest := by
  induction legs generalizing i with
  | nil => cases h
  | cons first others ih =>
    cases i with
    | zero =>
      cases h
      exact ⟨others.flatMap Leg.bytes, rfl⟩
    | succ i =>
      obtain ⟨rest, eq⟩ := ih i h
      refine ⟨rest, ?_⟩
      rw [List.flatMap_cons, Nat.mul_succ, Nat.add_comm, ← List.drop_drop, List.drop_left' first.bytes_length, eq]

/-- What stands at an offset of leg i stands at that offset of its own bytes. -/
theorem RouteRecord.read_leg {i : Nat} {leg : Leg} (h : r.legs[i]? = some leg) :
    ∃ rest, ∀ k, byteAt r.bytes (32 + 18 * i + k) = byteAt (leg.bytes ++ rest) k ∧
      wordAt r.bytes (32 + 18 * i + k) = wordAt (leg.bytes ++ rest) k ∧
      longAt r.bytes (32 + 18 * i + k) = longAt (leg.bytes ++ rest) k := by
  obtain ⟨rest, eq⟩ := drop_legs r.legs i h
  refine ⟨rest, fun k => ?_⟩
  have same : r.bytes.drop (32 + 18 * i + k) = (leg.bytes ++ rest).drop k := by
    rw [← eq, ← r.drop_header, List.drop_drop, List.drop_drop, Nat.add_assoc]
  unfold byteAt wordAt longAt
  rw [same]
  exact ⟨rfl, rfl, rfl⟩

/-! ### Codes (R179, a set flag being 1) -/

theorem flagCode_eq (b : Bool) : flagCode b % 256 = if b then 1 else 0 := by
  cases b <;> rfl

theorem RouteRecord.flags_eq : r.flags % 256 = (if r.trimmed then 1 else 0) + (if r.summarised then 2 else 0) +
    (if r.egress then 4 else 0) + (if r.destClosed then 8 else 0) + (if r.clockUnset then 16 else 0) := by
  have flags : ∀ a b c d e : Bool,
      (flagCode a + 2 * flagCode b + 4 * flagCode c + 8 * flagCode d + 16 * flagCode e) % 256 =
        (if a then 1 else 0) + (if b then 2 else 0) + (if c then 4 else 0) + (if d then 8 else 0) +
          (if e then 16 else 0) := by decide
  exact flags _ _ _ _ _

theorem RouteStatus.code_mod (status : RouteStatus) : status.code % 256 = match status with
    | .found => 0 | .arrived => 1 | .unreachable => 2 | .noOpenEntrance => 3 := by
  cases status <;> rfl

theorem LegKind.code_mod (kind : LegKind) : kind.code % 256 = match kind with
    | .walk => 0 | .door => 1 | .stairsUp => 2 | .stairsDown => 3 | .escalatorUp => 4 | .escalatorDown => 5
    | .elevatorUp => 6 | .elevatorDown => 7 | .travelator => 8 | .onward => 9 := by
  cases kind <;> rfl

theorem getD_mod (o : Option Nat) (absent size : Nat) : o.getD absent % size = match o with
    | some n => n % size
    | none => absent % size := by
  cases o <;> rfl

end

/-! ### COLLECT (R82) -/

section

variable {s : State} {screen n : Nat}

theorem exec_collect (h : s.Started) (b : Byte) :
    exec (.collect [b]) s = .next ((s.hunting.collect b.toNat).replied .collect) := by
  change Host.Outcome.next (s.take _ _ _) = _
  rw [State.take_of_started h rfl, byteAt_cons_zero]

theorem State.collect_badScreen (h : 64 ≤ screen) : s.collect screen = refuse s .badScreen := if_pos h

theorem State.collect_noResult (h : screen < 64) (unready : ∀ n, s.screen screen ≠ .ready n) :
    s.collect screen = refuse s .noResult := by
  unfold State.collect
  rw [if_neg (Nat.not_le.mpr h)]
  split
  next n ready => exact absurd ready (unready n)
  · rfl

theorem State.collect_ready (h : screen < 64) {x : Slot} (ready : s.screen screen = .ready n)
    (slot : s.slot n = some x) :
    s.collect screen = { code := .ok, data := x.record.bytes, state := s.freeSlot n screen } := by
  unfold State.collect
  rw [if_neg (Nat.not_le.mpr h), ready]
  simp only [slot]

/-! ### HOLD_TIMER_EXPIRY and SLOT_GRANT (R79, R81) -/

theorem exec_holdTimerExpiry (h : s.Running) (n : Fin 48) :
    exec (.holdTimerExpiry n) s = .next (s.holdExpiry n) :=
  congrArg Host.Outcome.next (State.event_of_running h _)

theorem State.holdExpiry_free (slot : s.slot n = none) : s.holdExpiry n = s := by
  unfold State.holdExpiry
  rw [slot]

theorem State.holdExpiry_occupied {x : Slot} (slot : s.slot n = some x) :
    s.holdExpiry n = (s.offer (.resultExpired x.screen x.record.tag)).freeSlot n x.screen := by
  unfold State.holdExpiry
  rw [slot]

theorem exec_slotGrant (h : s.Running) : exec .slotGrant s = .next s.slotGrant :=
  congrArg Host.Outcome.next (State.event_of_running h _)

theorem State.slotGrant_idle (h : s.store.holders = [] ∨ ∀ n, n < 48 → s.slot n ≠ none) : s.slotGrant = s := by
  unfold State.slotGrant
  rcases h with empty | full
  · split
    · exact State.grantSlot_alone _ empty
    · rfl
  · rw [State.lowestFreeSlot_eq_none full]

theorem State.slotGrant_eq {l : Nat} {rest : List Nat} {r : RouteRecord} (hn : n < 48) (free : s.slot n = none)
    (lowest : ∀ m, m < n → s.slot m ≠ none) (holders : s.store.holders = l :: rest)
    (record : (s.lane l).record = some r) : s.slotGrant = (s.setHolders rest).storeRecord n l r := by
  unfold State.slotGrant
  rw [State.lowestFreeSlot_eq hn free lowest]
  exact State.grantSlot_eq holders record

end

end Sys2Proof.Machine
end

section

open Sys2Proof Sys2Proof.Machine

/-- Settles O41: COLLECT and the expiry of a hold timer are `State.freeSlot` (`State.freeSlot_slotFreed`), the bytes of a
record read back field by field, and SLOT_GRANT is `State.storeRecord` of the first lane that holds. -/
theorem collectingAndExpiryFreeTheSlot : Obligations.CollectingAndExpiryFreeTheSlot := by
  refine ⟨fun s b started canonical => ?_, fun r => ?_, fun s n running canonical => ?_, fun s running canonical => ?_⟩
  · rw [exec_collect started]
    refine ⟨fun above => ?_, fun below => ⟨fun unready => ?_, fun n x ready slot => ?_⟩⟩
    · rw [State.collect_badScreen above]
      exact congrArg _ (s.refuse_replied .collect .badScreen (by decide))
    · rw [State.collect_noResult (s := s.hunting) below unready]
      exact congrArg _ (s.refuse_replied .collect .noResult (by decide))
    · refine ⟨s.freeSlot n b.toNat, State.freeSlot_slotFreed n canonical.store b.toNat, ?_⟩
      rw [State.collect_ready (s := s.hunting) below ready slot, State.hunting_freeSlot]
      rfl
  · obtain ⟨tag, screen, status, destination, category, flags, reached, floor, node, totalTime, seconds, minutes,
      distance, epoch, generation, legs, fill⟩ := r.read_bytes
    refine ⟨r.bytes_length, tag, screen, status.trans (RouteStatus.code_mod _), destination, category,
      flags.trans r.flags_eq, reached.trans ?_, floor.trans ?_, node.trans ?_, totalTime, seconds, minutes, distance,
      epoch, generation, legs, fill, fun i leg listed => ?_⟩
    · exact getD_mod _ _ _
    · rcases r.target with _ | ⟨node, floor⟩ <;> rfl
    · rcases r.target with _ | ⟨node, floor⟩ <;> rfl
    · obtain ⟨rest, read⟩ := r.read_leg listed
      obtain ⟨kind, stopped, turn, heading, distance, time, endNode, landmark, endFloor, fill⟩ := leg.read_bytes rest
      refine ⟨(read 0).1.trans (kind.trans (LegKind.code_mod _)), (read 1).1.trans (stopped.trans (flagCode_eq _)),
        (read 2).1.trans (turn.trans (getD_mod _ _ _)), (read 3).1.trans (heading.trans (getD_mod _ _ _)),
        (read 4).2.2.trans distance, (read 8).2.2.trans time, (read 12).2.1.trans endNode,
        (read 14).2.1.trans (landmark.trans (getD_mod _ _ _)), (read 16).1.trans endFloor, (read 17).1.trans fill⟩
  · rw [exec_holdTimerExpiry running]
    refine ⟨fun free => by rw [State.holdExpiry_free free], fun x slot => ⟨_, rfl, ?_⟩⟩
    rw [State.holdExpiry_occupied slot]
    exact State.freeSlot_slotFreed (s := s.offer _) n { canonical.store with } x.screen
  · rw [exec_slotGrant running]
    refine ⟨fun idle => by rw [State.slotGrant_idle idle], fun n l rest r hn free lowest holders record => ?_⟩
    have stored := State.storeRecord_stored (s := s.setHolders rest) { canonical.store with } n l r
    rw [State.slotGrant_eq hn free lowest holders record]
    exact ⟨_, rfl, { stored with }, rfl, fun i hi => State.storeRecord_screens _ n l r hi, rfl⟩

end

section
/-! SUPPORT. A state that refutes what a change of mode is said to leave in the lanes: a FREE lane that holds a search
context (R41, R62, R96). -/

namespace Sys2Proof.Machine

/-- A FREE lane, without a request and without a record, in which the context of a search stands. -/
def Lane.freeWithContext : Lane :=
  { Lane.cleared with
    context := some { mode := .normal, profile := 0, origin := 0, facing := 0, kind := .unused, ref := 0, category := 0
                      ownGate := none, epoch := 0, generation := 0, clockSet := false } }

/-- After ACK START in an EMPTY site: the ALARM pin stands high and is measured, and SL0 is the lane above. -/
def State.contextLeft : State :=
  { State.reset with
    lanes := [(0, .freeWithContext)]
    egress := { State.reset.egress with measuring := true }
    link := { State.reset.link with startPending := false } }

theorem State.contextLeft_lane (l : Nat) :
    State.contextLeft.lane l = if 0 = l then .freeWithContext else .cleared := Table.get_cons ..

theorem State.contextLeft_started : State.contextLeft.Started := ⟨⟨rfl, rfl, by decide⟩, rfl⟩

theorem State.contextLeft_canonical : State.contextLeft.Canonical where
  site := ⟨rfl, rfl, rfl, rfl, rfl, rfl, rfl, rfl, rfl, rfl, rfl⟩
  closures := rfl
  motions := rfl
  gates := rfl
  levels := rfl
  channels := rfl
  screens := rfl
  lanes := rfl
  labels l := by
    rw [State.contextLeft_lane]
    split <;> rfl
  slots := rfl

theorem State.contextLeft_outstanding : State.contextLeft.Outstanding := by
  refine (Work.Accounted.of_cleared (w := State.contextLeft.work) rfl rfl rfl fun l => ?_).outstanding
  rw [show State.contextLeft.work.lane l = _ from State.contextLeft_lane l]
  split <;> exact ⟨rfl, rfl, rfl⟩

/-- R152 is said to leave no context in any lane; the context of SL0 stands. -/
theorem State.contextLeft_not_entersEgress {u : State} (kept : u.lanes = [(0, .freeWithContext)]) (cause : EntryCause)
    (asserted : Bool) : ¬ State.contextLeft.EntersEgress u cause asserted := by
  intro enters
  obtain ⟨-, -, handed⟩ := enters.other nofun nofun
  obtain ⟨-, -, context, -⟩ := handed.lanes 0 (by decide)
  have stands : u.lane 0 = .freeWithContext := by
    unfold State.lane
    rw [kept]
    rfl
  rw [stands] at context
  cases context

end Sys2Proof.Machine
end

section

open Sys2Proof Sys2Proof.Machine

/-- Refutes O51: that every lane ends without a context does not follow from the premises, which leave the context of a FREE
lane open. No lane works in `State.contextLeft`, so EGRESS ENTER has none give up its work, and SL0 keeps its context. -/
theorem not_drillAndResumeHandTheWorkBack : ¬ Obligations.DrillAndResumeHandTheWorkBack := by
  intro h
  obtain ⟨-, -, -, drill, -⟩ := h .contextLeft State.contextLeft_started State.contextLeft_canonical
    State.contextLeft_outstanding (by decide)
  obtain ⟨u, run, -, -, enters⟩ := drill rfl
  have kept : u.lanes = [(0, .freeWithContext)] := (congrArg State.lanes (Host.Outcome.next.inj run)).symm
  exact State.contextLeft_not_entersEgress kept _ _ enters

/-- Refutes O52: as in O51, the premises leave the context of a FREE lane open. The level that becomes ASSERTED in
`State.contextLeft` enters EGRESS, and SL0 keeps its context. -/
theorem not_alarmFollowsTheFilteredLevel : ¬ Obligations.AlarmFollowsTheFilteredLevel := by
  intro h
  obtain ⟨-, -, -, measured, -⟩ := h .contextLeft State.contextLeft_started.1.1
  obtain ⟨u, run, -, -, enters⟩ := (measured rfl rfl).1 rfl State.contextLeft_canonical State.contextLeft_outstanding
    (by decide)
  have kept : u.lanes = [(0, .freeWithContext)] := (congrArg State.lanes (Host.Outcome.next.inj run)).symm
  exact State.contextLeft_not_entersEgress kept _ _ enters

end

section
/-! SUPPORT. SCREEN STATE and FLOW READ: what each reports (R100, R135). -/

namespace Sys2Proof.Machine

section

variable {s : State} {screen : Nat}

/-! ### SCREEN STATE (R100) -/

theorem exec_screenState (h : s.Started) (b : Byte) :
    exec (.screenState [b]) s = .next ((s.hunting.screenStateReply b.toNat).replied .screenState) := by
  change Host.Outcome.next (s.take _ _ _) = _
  rw [State.take_of_started h rfl, byteAt_cons_zero]

theorem State.screenStateReply_badScreen (h : 64 ≤ screen) : s.screenStateReply screen = refuse s .badScreen := if_pos h

/-- The reply of SCREEN STATE for a screen of the part. -/
theorem exec_screenState_reported (h : s.Started) {b : Byte} (below : b.toNat < 64) :
    exec (.screenState [b]) s =
      .next (s.answers 0x93 (0 :: (s.screenReport b.toNat).bytes (s.screen b.toNat))) := by
  rw [exec_screenState h]
  have taken : s.hunting.screenStateReply b.toNat =
      { code := .ok, data := (s.screenReport b.toNat).bytes (s.screen b.toNat), state := s.hunting } :=
    if_neg (Nat.not_le.mpr below)
  rw [taken]
  rfl

theorem State.screenReport_idle (h : s.screen screen = .idle) : s.screenReport screen =
    { tag := none, position := none, passes := none, priority := none, mark := none, lane := none, laneState := none
      slot := none } := by
  simp only [State.screenReport, h]

/-- R100: a queued request is reported by the first entry of its screen. -/
theorem State.screenReport_queued {ahead behind : List QueueEntry} {e : QueueEntry} (h : s.screen screen = .queued)
    (queue : s.dispatcher.queue = ahead ++ e :: behind) (own : e.request.screen = screen)
    (others : ∀ x ∈ ahead, x.request.screen ≠ screen) : s.screenReport screen =
    { tag := some e.request.tag, position := some (ahead.length + 1), passes := some e.request.passes
      priority := some (s.priorityOf e), mark := some (flagCode e.egressMark), lane := none, laneState := none
      slot := none } := by
  have place : (s.dispatcher.queue.findIdx? fun x => x.request.screen = screen) = some ahead.length := by
    have absent : (ahead.findIdx? fun x => decide (x.request.screen = screen)) = none := by simpa using others
    rw [queue, List.findIdx?_append, absent, List.findIdx?_cons]
    simp [own]
  have entry : s.dispatcher.queue[ahead.length]? = some e := by simp [queue]
  simp only [State.screenReport, h, place, entry]

theorem State.screenReport_active {l : Nat} {r : Request} (h : s.screen screen = .active l)
    (request : (s.lane l).request = some r) : s.screenReport screen =
    { tag := some r.tag, position := none, passes := none, priority := none, mark := none, lane := some l
      laneState := some (s.lane l).state.code, slot := none } := by
  simp only [State.screenReport, h, request, Option.map_some]

theorem State.screenReport_ready {n : Nat} {held : Slot} (h : s.screen screen = .ready n) (slot : s.slot n = some held) :
    s.screenReport screen =
    { tag := some held.record.tag, position := none, passes := none, priority := none, mark := none, lane := none
      laneState := none, slot := some n } := by
  simp only [State.screenReport, h, slot, Option.map_some]

/-- R91, R100: the effective priority in either mode. -/
theorem State.priorityOf_eq (e : QueueEntry) : s.priorityOf e =
    if s.egress.mode = .egress ∨ e.request.assist = true ∨ 8 ≤ e.request.passes then 3
    else (s.screenRecord e.request.screen).priority := by
  cases mode : s.egress.mode with
  | egress => simp [State.priorityOf_egress mode]
  | normal => simp [State.priorityOf_normal mode]

/-! ### FLOW READ (R135) -/

theorem exec_flowRead (h : s.Started) (b : Byte) :
    exec (.flowRead [b]) s = .next ((s.hunting.flowRead b.toNat).replied .flowRead) := by
  change Host.Outcome.next (s.take _ _ _) = _
  rw [State.take_of_started h rfl, byteAt_cons_zero]

theorem State.flowRead_badIndex {c : Nat} (h : 64 ≤ c) : s.flowRead c = refuse s .badIndex := if_pos h

/-- The reply of FLOW READ for a channel of the part. -/
theorem exec_flowRead_reported (h : s.Started) {b : Byte} (below : b.toNat < 64) :
    exec (.flowRead [b]) s = .next (s.answers 0x94 (0 :: s.flowReport b.toNat)) := by
  rw [exec_flowRead h]
  have taken : s.hunting.flowRead b.toNat = { code := .ok, data := s.flowReport b.toNat, state := s.hunting } :=
    if_neg (Nat.not_le.mpr below)
  rw [taken]
  rfl

end

end Sys2Proof.Machine
end

section

open Sys2Proof Sys2Proof.Machine

/-- Settles O19, by the state of the screen. -/
theorem screenAndFlowReports : Obligations.ScreenAndFlowReports := by
  refine fun s started => ⟨fun i above => ⟨?_, ?_⟩, fun i below => ⟨fun idle => ?_, fun ahead e behind => ?_,
    fun l r active request => ?_, fun n held ready slot => ?_, ?_⟩⟩
  · rw [exec_screenState started, State.screenStateReply_badScreen above]
    exact congrArg _ (s.refuse_replied .screenState .badScreen (by decide))
  · rw [exec_flowRead started, State.flowRead_badIndex above]
    exact congrArg _ (s.refuse_replied .flowRead .badIndex (by decide))
  · rw [exec_screenState_reported started below, State.screenReport_idle idle, idle]
    rfl
  · intro queued queue own others
    rw [exec_screenState_reported started below, State.screenReport_queued queued queue own others, queued,
      State.priorityOf_eq]
    rfl
  · rw [exec_screenState_reported started below, State.screenReport_active active request, active]
    rfl
  · rw [exec_screenState_reported started below, State.screenReport_ready ready slot, ready]
    rfl
  · rw [exec_flowRead_reported started below, State.flowReport]
    generalize s.channel i.toNat = ch
    cases last : ch.lastCount <;> simp only [last] <;> rfl

end

section
/-! SUPPORT. ROUTE: the request its payload carries, the checks of R88 one by one, and the entry of R89. -/

namespace Sys2Proof.Machine

section

variable {s : State} {r : Request}

/-! ### The payload (R87, R179) -/

/-- The profile byte of a choice below 255, or of none, names the choice. -/
theorem profileChoice_getD {choice : Option Nat} (h : ∀ p, choice = some p → p < 255) :
    profileChoice (choice.getD 255) = choice := by
  cases choice with
  | none => rfl
  | some p => exact if_neg (h p rfl).ne

theorem Request.ofPayload_eq {screen destination tag : Nat} {choice : Option Nat} (hs : screen < 256)
    (hd : destination < 65536) (ht : tag < 65536) (hc : ∀ p, choice = some p → p < 255) (assist : Byte) :
    Request.ofPayload (le8 screen ++ le16 destination ++ le8 (choice.getD 255) ++ le16 tag ++ [assist]) =
      { screen := screen, destination := destination, choice := choice, tag := tag, assist := assist ≠ 0, passes := 0 } := by
  have profile : choice.getD 255 < 256 := by
    cases choice with
    | none => decide
    | some p => exact (hc p rfl).trans (by decide)
  have assisted : decide (assist.toNat ≠ 0) = decide (assist ≠ 0) :=
    decide_eq_decide.mpr (not_congr (BitVec.toNat_inj (y := 0)))
  have bytes (n : Nat) (h : n < 256) : (BitVec.ofNat 8 n).toNat = n := by simpa using h
  have words (n : Nat) (h : n < 65536) : (BitVec.ofNat 8 n).toNat + 256 * (BitVec.ofNat 8 (n / 256)).toNat = n := by
    rw [BitVec.toNat_ofNat, BitVec.toNat_ofNat]
    omega
  simp only [Request.ofPayload, le8, le16, List.cons_append, List.nil_append, byteAt_cons_zero, byteAt_cons_succ,
    wordAt_cons_zero, wordAt_cons_succ, bytes _ hs, bytes _ profile, words _ hd, words _ ht, profileChoice_getD hc, assisted]

theorem RequestKind.lengthAllowed_route {payload : List Byte} (length : payload.length = 7) :
    RequestKind.route.lengthAllowed payload = true := decide_eq_true length

theorem exec_route (h : s.Started) {payload : List Byte} (length : payload.length = 7) :
    exec (.route payload) s = .next ((s.hunting.route (Request.ofPayload payload)).replied .route) := by
  change Host.Outcome.next (s.take _ _ _) = _
  rw [State.take_of_started h (RequestKind.lengthAllowed_route length)]

theorem exec_route_notStarted (h : s.Open) (startPending : s.link.startPending = true) {payload : List Byte}
    (length : payload.length = 7) : exec (.route payload) s = .next (s.answers 0x90 [9]) := by
  change Host.Outcome.next (s.take _ _ _) = _
  rw [State.take_of_notStarted h (RequestKind.lengthAllowed_route length) startPending rfl]
  exact congrArg _ (s.refuse_replied .route .notStarted (by decide))

/-! ### The checks (R88) -/

theorem State.badScreen_iff {screen : Nat} :
    s.badScreen screen = true ↔ 64 ≤ screen ∨ (s.screenRecord screen).enabled = false := by
  simp [State.badScreen, Config.screens]

theorem State.badDestination_iff {destination : Nat} : s.badDestination destination = true ↔
    1024 ≤ destination ∨ s.site.header.directoryCount ≤ destination ∨
      (s.directoryEntry destination).kind = .unused := by
  simp [State.badDestination, or_assoc]

theorem badChoice_iff {choice : Option Nat} : badChoice choice = true ↔ ∃ p, choice = some p ∧ 7 < p := by
  cases choice <;> simp [badChoice]

theorem State.badScreen_eq_false {screen : Nat} (below : screen < 64) (enabled : (s.screenRecord screen).enabled = true) :
    s.badScreen screen = false := by
  rw [← Bool.not_eq_true, State.badScreen_iff, enabled]
  simpa using below

theorem State.badDestination_eq_false {destination : Nat} (within : destination < 1024)
    (listed : destination < s.site.header.directoryCount) (used : (s.directoryEntry destination).kind ≠ .unused) :
    s.badDestination destination = false := by
  rw [← Bool.not_eq_true, State.badDestination_iff]
  simpa using ⟨within, listed, used⟩

theorem badChoice_eq_false {choice : Option Nat} (known : ∀ p, choice = some p → p ≤ 7) : badChoice choice = false := by
  rw [← Bool.not_eq_true, badChoice_iff]
  simpa using known

/-- R88: checks 2 to 5 pass. -/
structure State.RouteAdmits (s : State) (r : Request) : Prop where
  site : s.site.state = .valid
  screen : s.badScreen r.screen = false
  destination : s.badDestination r.destination = false
  choice : badChoice r.choice = false

theorem State.routeRefusal_unavailable (h : s.site.state ≠ .valid) : s.routeRefusal r = some .siteUnavailable := if_pos h

theorem State.routeRefusal_badScreen (site : s.site.state = .valid) (h : s.badScreen r.screen = true) :
    s.routeRefusal r = some .badScreen := by
  simp [State.routeRefusal, site, h]

theorem State.routeRefusal_badDestination (site : s.site.state = .valid) (screen : s.badScreen r.screen = false)
    (h : s.badDestination r.destination = true) : s.routeRefusal r = some .badDestination := by
  simp [State.routeRefusal, site, screen, h]

theorem State.routeRefusal_badProfile (site : s.site.state = .valid) (screen : s.badScreen r.screen = false)
    (destination : s.badDestination r.destination = false) (h : badChoice r.choice = true) :
    s.routeRefusal r = some .badProfile := by
  simp [State.routeRefusal, site, screen, destination, h]

/-- R88 checks 6 to 8: what the screen and the queue decide. -/
theorem State.routeRefusal_admitted (h : s.RouteAdmits r) : s.routeRefusal r = match s.screen r.screen with
    | .queued => some .screenBusy
    | .active _ => some .screenBusy
    | .ready _ => some .resultPending
    | .idle => if 32 ≤ s.dispatcher.queue.length then some .queueFull else none := by
  obtain ⟨site, screen, destination, choice⟩ := h
  cases status : s.screen r.screen <;>
    simp [State.routeRefusal, site, screen, destination, choice, status, Config.queueEntries]

/-- A refused ROUTE changes nothing but the reply. -/
theorem State.route_refused {code : ReplyCode} (h : s.routeRefusal r = some code) (bad : code ≠ .ok) :
    (s.hunting.route r).replied .route = s.answers 0x90 (le8 code.code) := by
  have refused : s.hunting.routeRefusal r = some code := h
  rw [State.route, refused]
  exact s.refuse_replied .route code bad

end

end Sys2Proof.Machine
end

section

open Sys2Proof Sys2Proof.Machine

/-- Settles O38, by the checks in their order. -/
theorem routeIsRefusedByTheFirstFailingCheck : Obligations.RouteIsRefusedByTheFirstFailingCheck := by
  intro s screen destination tag choice assist opened hs hd ht hc c refused
  refine ⟨fun startPending => exec_route_notStarted opened startPending rfl, fun acked => ?_⟩
  have answered (code : ReplyCode) (bad : code ≠ .ok)
      (first : s.routeRefusal { screen := screen, destination := destination, choice := choice, tag := tag
                                assist := assist ≠ 0, passes := 0 } = some code) :
      exec c s = .next (s.answers 0x90 (le8 code.code)) := by
    change exec (.route _) s = _
    rw [exec_route ⟨opened, acked⟩ rfl, Request.ofPayload_eq hs hd ht hc, State.route_refused first bad]
  refine ⟨fun closed => answered .siteUnavailable nofun (State.routeRefusal_unavailable closed), fun site => ?_⟩
  refine ⟨fun bad => answered .badScreen nofun (State.routeRefusal_badScreen site (State.badScreen_iff.mpr bad)),
    fun below enabled => ?_⟩
  have goodScreen : s.badScreen screen = false := State.badScreen_eq_false below enabled
  refine ⟨fun bad => answered .badDestination nofun
    (State.routeRefusal_badDestination site goodScreen (State.badDestination_iff.mpr bad)), fun within listed used => ?_⟩
  have goodDestination : s.badDestination destination = false := State.badDestination_eq_false within listed used
  refine ⟨fun bad => answered .badProfile nofun
    (State.routeRefusal_badProfile site goodScreen goodDestination (badChoice_iff.mpr bad)), fun known => ?_⟩
  have admitted := State.routeRefusal_admitted (s := s)
    (r := { screen := screen, destination := destination, choice := choice, tag := tag, assist := assist ≠ 0, passes := 0 })
    ⟨site, goodScreen, goodDestination, badChoice_eq_false known⟩
  refine ⟨fun busy => answered .screenBusy nofun (admitted.trans ?_), fun pending => answered .resultPending nofun
    (admitted.trans ?_), fun idle full => answered .queueFull nofun (admitted.trans ?_)⟩
  · rcases busy with queued | ⟨l, active⟩
    · simp only [queued]
    · simp only [active]
  · obtain ⟨n, ready⟩ := pending
    simp only [ready]
  · simp only [idle, full, if_true]

/-- Settles O39: no check of R88 fails, and `State.route` appends the entry. -/
theorem acceptedRouteJoinsTheTail : Obligations.AcceptedRouteJoinsTheTail := by
  intro s screen destination tag choice assist started site below enabled within listed used known ht idle room
  have admitted := State.routeRefusal_admitted (s := s)
    (r := { screen := screen, destination := destination, choice := choice, tag := tag, assist := assist ≠ 0, passes := 0 })
    ⟨site, State.badScreen_eq_false below enabled, State.badDestination_eq_false within listed used,
      badChoice_eq_false known⟩
  have passes : s.hunting.routeRefusal { screen := screen, destination := destination, choice := choice, tag := tag
                                         assist := assist ≠ 0, passes := 0 } = none :=
    admitted.trans (by simp only [idle, Nat.not_le.mpr room, if_false])
  refine ⟨_, exec_route started rfl, ?_⟩
  rw [Request.ofPayload_eq (below.trans (by decide)) (within.trans (by decide)) ht
    (fun p eq => (known p eq).trans_lt (by decide)), State.route, passes]
  exact ⟨rfl, Table.get_set_self_of_ne _ _ _ nofun, fun i hi => Table.get_set_of_ne _ _ _ hi, rfl⟩

end

section
/-! SUPPORT. What every change of the host link keeps: the bounds of its queues and of the frame it assembles (R168, R169,
R175, R176), the ranges of the parameters (R174), and the room of the reply queue. -/

namespace Sys2Proof.Machine

section

variable {k : HostLink}

/-! ### The notice queue (R175, R176) -/

/-- A queued notice keeps its key when a later one of its key replaces its content. -/
theorem Notice.key_replacedBy {m n : Notice} (same : m.sameKey n = true) :
    ((m.replacedBy n).number, (m.replacedBy n).subject) = (m.number, m.subject) := by
  simp only [Notice.sameKey, Bool.and_eq_true, decide_eq_true_eq] at same
  have later : (n.number, n.subject) = (m.number, m.subject) := Prod.ext same.1.symm same.2.symm
  unfold Notice.replacedBy
  split
  · rfl
  · exact later

theorem HostLink.Bounded.offer (h : k.Bounded) (n : Notice) : (k.offer n).Bounded := by
  unfold HostLink.offer
  split
  · exact h
  · split
    · have keys : (k.notices.map fun m => if m.sameKey n then m.replacedBy n else m).map
          (fun m => (m.number, m.subject)) = k.notices.map fun m => (m.number, m.subject) := by
        rw [List.map_map]
        refine List.map_congr_left fun m _ => ?_
        dsimp only [Function.comp]
        split
        next same => exact Notice.key_replacedBy same
        · rfl
      exact { h with
        notices := (List.length_map _).trans_le h.notices
        keys := keys ▸ h.keys
        marked := fun mark => ⟨(List.length_map _).trans (h.marked mark).1, (h.marked mark).2⟩ }
    next fresh =>
      split
      next room =>
        have short : k.notices.length < 48 := room
        exact { h with
          notices := by rw [List.length_append]; exact short
          keys := by
            rw [List.map_append, List.nodup_append]
            refine ⟨h.keys, List.nodup_singleton _, fun a ha b hb same => fresh ?_⟩
            obtain ⟨m, hm, rfl⟩ := List.mem_map.mp ha
            obtain rfl := List.mem_singleton.mp hb
            obtain ⟨number, subject⟩ := Prod.mk.inj same
            exact List.any_eq_true.mpr ⟨m, hm, by simp [Notice.sameKey, number, subject]⟩
          marked := fun mark => absurd (h.marked mark).1 short.ne }
      next full =>
        have length : k.notices.length = 48 := Nat.le_antisymm h.notices (Nat.le_of_not_lt full)
        exact { h with
          marked := fun _ => ⟨length, by simp, Nat.min_le_right _ _⟩
          unmarked := nofun }

/-- R176: notices have left the queue, and OVERRUN takes the room when the mark was set. -/
theorem HostLink.Bounded.entryLeft (h : k.Bounded) {rest : List Notice} (left : rest.Sublist k.notices) :
    ({ k with notices := rest } : HostLink).entryLeft.Bounded := by
  unfold HostLink.entryLeft
  dsimp only
  split
  · refine HostLink.Bounded.offer ?_ _
    exact { h with
      notices := left.length_le.trans h.notices
      keys := h.keys.sublist (left.map _)
      marked := nofun
      unmarked := fun _ => rfl }
  next unmarked =>
    exact { h with
      notices := left.length_le.trans h.notices
      keys := h.keys.sublist (left.map _)
      marked := fun mark => absurd mark unmarked }

theorem HostLink.Bounded.removeStart (h : k.Bounded) : k.removeStart.Bounded := by
  unfold HostLink.removeStart
  split
  · exact h.entryLeft List.filter_sublist
  · exact h

/-! ### The reply queue (R169) -/

theorem HostLink.Bounded.append (h : k.Bounded) (room : k.replies.length ≤ 6) (f : Frame) : (k.append f).Bounded :=
  { h with
    replies := by rw [HostLink.append, List.length_append, List.length_singleton]; omega
    last := fun full => by rw [HostLink.append, List.length_append, List.length_singleton] at full; omega
    runs := fun n listed => h.runs n (by simpa [HostLink.append] using listed) }

/-- R169: the busy run at the end of the queue grows, or one is appended. -/
theorem growBusyRun_cases (replies : List ReplyEntry) :
    (∃ init n, replies = init ++ [.busyRun n] ∧
      growBusyRun replies = init ++ [.busyRun (if n < 65535 then n + 1 else n)]) ∨
    (∀ n, replies.getLast? ≠ some (.busyRun n)) ∧ growBusyRun replies = replies ++ [.busyRun 1] := by
  induction replies using growBusyRun.induct with
  | case1 => exact .inr ⟨nofun, rfl⟩
  | case2 n => exact .inl ⟨[], n, rfl, rfl⟩
  | case3 f => exact .inr ⟨nofun, rfl⟩
  | case4 e rest notRun notReply ih =>
    obtain ⟨r, rest, rfl⟩ : ∃ r tail, rest = r :: tail := by
      cases rest with
      | nil => cases e with
        | reply f => exact absurd rfl (notReply f rfl)
        | busyRun n => exact absurd rfl (notRun n rfl)
      | cons r tail => exact ⟨r, tail, rfl⟩
    have grown : growBusyRun (e :: r :: rest) = e :: growBusyRun (r :: rest) := by
      cases e <;> rfl
    rw [grown]
    rcases ih with ⟨init, n, parts, eq⟩ | ⟨last, eq⟩
    · exact .inl ⟨e :: init, n, by rw [parts]; rfl, by rw [eq]; rfl⟩
    · exact .inr ⟨by simpa using last, by rw [eq]; rfl⟩

theorem HostLink.Bounded.grow (h : k.Bounded) (full : 7 ≤ k.replies.length) :
    ({ k with replies := growBusyRun k.replies } : HostLink).Bounded := by
  rcases growBusyRun_cases k.replies with ⟨init, n, parts, eq⟩ | ⟨last, eq⟩
  · have most := h.replies
    have run := h.runs n (by simp [parts])
    rw [parts] at most
    refine { h with replies := ?_, last := fun _ => ⟨_, eq ▸ List.getLast?_concat⟩, runs := fun m listed => ?_ }
    · simpa [eq] using most
    · rw [eq, List.mem_append, List.mem_singleton] at listed
      rcases listed with before | grown
      · exact h.runs m (by simp [parts, before])
      · obtain rfl := ReplyEntry.busyRun.inj grown
        split <;> omega
  · have seven : k.replies.length ≠ 8 := fun eight => by
      obtain ⟨n, run⟩ := h.last eight
      exact last n run
    have most := h.replies
    refine { h with replies := ?_, last := fun _ => ⟨1, eq ▸ List.getLast?_concat⟩, runs := fun m listed => ?_ }
    · simp only [eq, List.length_append, List.length_singleton]
      omega
    · rw [eq, List.mem_append, List.mem_singleton] at listed
      rcases listed with before | appended
      · exact h.runs m before
      · obtain rfl := ReplyEntry.busyRun.inj appended
        omega

/-- R169: the front reply goes to the transmitter. -/
theorem HostLink.Bounded.takeReply (h : k.Bounded) {f : Frame} {rest : List ReplyEntry}
    (taken : takeReply k.replies = some (f, rest)) :
    ({ k with replies := rest } : HostLink).Bounded ∧ rest.length ≤ k.replies.length := by
  have most := h.replies
  unfold Machine.takeReply at taken
  split at taken
  · cases taken
  next g tail queue =>
    obtain ⟨-, rfl⟩ := Prod.mk.inj (Option.some.inj taken)
    rw [queue, List.length_cons] at most ⊢
    refine ⟨{ h with replies := ?_, last := fun full => ?_, runs := fun n listed => ?_ }, Nat.le_succ _⟩
    · exact (Nat.le_succ _).trans most
    · change tail.length = 8 at full
      omega
    · exact h.runs n (queue ▸ List.mem_cons_of_mem _ listed)
  next n tail queue =>
    have run := h.runs n (queue ▸ List.mem_cons_self)
    have last := h.last
    rw [queue, List.length_cons] at most last ⊢
    obtain ⟨-, left⟩ := Prod.mk.inj (Option.some.inj taken)
    split at left
    next =>
      subst left
      refine ⟨{ h with replies := ?_, last := fun full => ?_, runs := fun n listed => ?_ }, Nat.le_succ _⟩
      · exact (Nat.le_succ _).trans most
      · change tail.length = 8 at full
        omega
      · exact h.runs n (queue ▸ List.mem_cons_of_mem _ listed)
    next more =>
      subst left
      refine ⟨{ h with replies := most, last := fun full => ?_, runs := fun m listed => ?_ }, Nat.le_refl _⟩
      · obtain ⟨m, run⟩ := last full
        cases tail with
        | nil => cases full
        | cons e tail => exact ⟨m, by simpa using run⟩
      · rcases List.mem_cons.mp listed with shrunk | behind
        · obtain rfl := ReplyEntry.busyRun.inj shrunk
          omega
        · exact h.runs m (queue ▸ List.mem_cons_of_mem _ behind)

/-! ### Reception (R168) -/

theorem HostLink.Bounded.toHunt (h : k.Bounded) : k.toHunt.Bounded :=
  { h with
    hunt := fun _ => ⟨rfl, rfl⟩, frame := fun away => absurd rfl away, length := nofun, kind := nofun, payload := nofun
    check := nofun, stated := fun away => absurd rfl away }

/-- The length that three bytes or more state is not changed by a byte that joins them. -/
theorem wordAt_one_concat {frame : List Byte} (h : 3 ≤ frame.length) (b : Byte) :
    wordAt (frame ++ [b]) 1 = wordAt frame 1 := by
  obtain ⟨x, y, z, rest, rfl⟩ : ∃ x y z rest, frame = x :: y :: z :: rest := by
    match frame, h with
    | x :: y :: z :: rest, _ => exact ⟨x, y, z, rest, rfl⟩
  simp

/-- A frame of SYNC and at least one byte more, its length stated when complete, is bounded in the state it gives. -/
theorem HostLink.Bounded.joined (h : k.Bounded) (away : k.reception ≠ .hunt) {b : Byte}
    (unjudged : k.judgesWith b = false) :
    ({ k with reception := receptionOf (k.assembled ++ [b]), assembled := k.assembled ++ [b] } : HostLink).Bounded := by
  obtain ⟨sync, gap⟩ := h.frame away
  obtain ⟨begun, frame⟩ := List.head?_eq_some_iff.mp sync
  have first : (k.assembled ++ [b]).head? = some 0xA5 := by rw [frame]; rfl
  have some1 : 1 ≤ k.assembled.length := by simp [frame]
  have shape : k.assembled.length + 1 < 3 ∨ 3 ≤ k.assembled.length + 1 ∧ wordAt (k.assembled ++ [b]) 1 ≤ 1024 ∧
      k.assembled.length + 1 ≤ 4 + wordAt (k.assembled ++ [b]) 1 := by
    cases state : k.reception with
    | hunt => exact absurd state away
    | length =>
      rcases h.length state with one | two
      · exact .inl (by omega)
      · simp [HostLink.judgesWith, state, two, Config.payloadBytes, statedLength] at unjudged
        exact .inr ⟨by omega, Nat.le_of_not_lt (of_decide_eq_false unjudged), by omega⟩
    | kind =>
      have three := h.kind state
      have stated := h.stated away (state ▸ nofun)
      rw [wordAt_one_concat (by omega)]
      exact .inr ⟨by omega, stated, by omega⟩
    | payload =>
      have within := h.payload state
      have stated := h.stated away (state ▸ nofun)
      rw [wordAt_one_concat (by omega)]
      exact .inr ⟨by omega, stated, by omega⟩
    | check => simp [HostLink.judgesWith, state] at unjudged
  have length : (k.assembled ++ [b]).length = k.assembled.length + 1 := by simp
  constructor
  case notices => exact h.notices
  case keys => exact h.keys
  case marked => exact h.marked
  case unmarked => exact h.unmarked
  case replies => exact h.replies
  case last => exact h.last
  case runs => exact h.runs
  all_goals
    unfold receptionOf statedLength
    simp only [length]
    grind

theorem HostLink.Bounded.receive (h : k.Bounded) {b : Byte} (unjudged : k.judgesWith b = false) :
    (k.receive b).Bounded := by
  unfold HostLink.receive
  split
  · split
    next sync =>
      subst sync
      exact { h with
        hunt := nofun, frame := fun _ => ⟨rfl, rfl⟩, length := fun _ => .inl rfl, kind := nofun, payload := nofun
        check := nofun, stated := fun _ other => absurd rfl other }
    · exact h
  next away => exact h.joined away unjudged

theorem HostLink.Bounded.receiveAll (bytes : List Byte) : ∀ {k : HostLink}, k.Bounded → (k.receiveAll bytes).Bounded := by
  induction bytes with
  | nil => exact fun h => h
  | cons b rest ih =>
    intro k h
    cases judged : k.judgesWith b with
    | true => rwa [HostLink.receiveAll_judged judged]
    | false =>
      rw [HostLink.receiveAll_taken judged]
      exact ih (h.receive judged)

end

end Sys2Proof.Machine
end

section
/-! SUPPORT. What the processing of a sample keeps: the ranges of a channel's values (R117, R121), and its counts below those
of its settings (R127, R130, R132). -/

namespace Sys2Proof.Machine

/-- R127, R130, R132: the channel's counts are those its settings allow. -/
structure Channel.Follows (ch : Channel) (c : ChannelConfig) : Prop where
  debounce : ch.debounce < c.debounce
  plateau : ch.plateau = 0 ∨ ch.plateau < c.plateauSamples
  missed : ch.missed ≤ c.staleLimit

/-- R10: the settings that bound a channel's counts. -/
structure ChannelConfig.Limits (c : ChannelConfig) : Prop where
  debounce : 1 ≤ c.debounce ∧ c.debounce ≤ 8
  plateau : c.plateauSamples ≤ 255
  stale : c.staleLimit ≤ 15

theorem ChannelConfig.limits_of_inRange {c : ChannelConfig} (h : c.inRange = true) : c.Limits := by
  simp only [ChannelConfig.inRange, Bool.and_eq_true, decide_eq_true_eq] at h
  constructor <;> omega

/-- A channel whose counts are all 0 follows every setting. -/
theorem Channel.follows_of_zero {ch : Channel} {c : ChannelConfig} (h : c.Limits) (debounce : ch.debounce = 0)
    (plateau : ch.plateau = 0) (missed : ch.missed = 0) : ch.Follows c :=
  ⟨by rw [debounce]; exact h.debounce.1, .inl plateau, by rw [missed]; exact Nat.zero_le _⟩

/-! ### Values in sixteenths (R117, R124, R128, R129) -/

/-- The floor of a number over a positive one lies between 0 and the number. -/
theorem ediv_between (x : Int) {d : Int} (h : 1 ≤ d) : min 0 x ≤ x / d ∧ x / d ≤ max 0 x := by
  rcases Int.le_total 0 x with up | down
  · have low := Int.ediv_nonneg up (by omega : 0 ≤ d)
    have high := Int.ediv_le_self d up
    omega
  · have low : x ≤ x / d := Int.le_ediv_of_mul_le (by omega) (by nlinarith)
    have high : x / d ≤ 0 := by
      have := Int.ediv_le_ediv (by omega : 0 < d) down
      rwa [Int.zero_ediv] at this
    omega

/-- A value that moves toward a target stays between the two. -/
theorem moveToward_between (value target : Int) (shift : Nat) :
    min value target ≤ moveToward value target shift ∧ moveToward value target shift ≤ max value target := by
  have step := ediv_between (target - value) (one_le_pow₀ (by omega : (1 : Int) ≤ 2) : (1 : Int) ≤ 2 ^ shift)
  unfold moveToward
  omega

theorem clampFlow_between (z : Int) : 0 ≤ clampFlow z ∧ clampFlow z ≤ 16368 := by
  unfold clampFlow Config.flowMost
  omega

/-! ### The steps on a good sample (R126 to R130) -/

section

variable {c : ChannelConfig} {ch : Channel} {count : Nat}

theorem levelAndDebounce_lt (limits : c.Limits) (f d : Int) (level : Level) {debounce : Nat} (h : debounce < c.debounce) :
    (levelAndDebounce c f d level debounce).2 < c.debounce := by
  have least := limits.debounce.1
  unfold levelAndDebounce
  dsimp only
  split
  · exact least
  · split
    · split
      · exact least
      · show debounce + 1 < c.debounce
        omega
    · exact least

/-- R128, R129: L stays in its range, and its change in its own. -/
theorem averageAfter_between (level : Level) {f average : Int} (hf : 0 ≤ f ∧ f ≤ 16368)
    (ha : 0 ≤ average ∧ average ≤ 16368) (change : Int) :
    (0 ≤ (averageAfter c level f average change).1 ∧ (averageAfter c level f average change).1 ≤ 16368) ∧
      -16368 ≤ (averageAfter c level f average change).2 ∧ (averageAfter c level f average change).2 ≤ 16368 := by
  unfold averageAfter
  split
  · have moved := moveToward_between average f c.averageShift
    dsimp only
    omega
  · split
    · exact ⟨clampFlow_between _, by simp, by simp⟩
    · exact ⟨ha, by simp, by simp⟩

/-- R130: the plateau count is 0, or one more than it was. -/
theorem plateauAfter_cases (c : ChannelConfig) (level : Level) (f activation : Int) (plateau : Nat) :
    plateauAfter c level f activation plateau = 0 ∨
      plateauAfter c level f activation plateau = plateau + 1 ∧ level ≠ .clear ∧ c.plateauSamples ≠ 0 := by
  unfold plateauAfter
  split
  · exact .inl rfl
  next away =>
    split
    · exact .inl rfl
    next samples =>
      split
      · exact .inr ⟨rfl, away, samples⟩
      · exact .inl rfl

/-- R130: a plateau count that does not reseed stays below the plateau samples. -/
theorem plateauAfter_below {level : Level} {f activation : Int} {plateau : Nat}
    (h : plateau = 0 ∨ plateau < c.plateauSamples)
    (stays : ¬ (level ≠ .clear && c.plateauSamples ≠ 0 && plateauAfter c level f activation plateau = c.plateauSamples) =
      true) :
    plateauAfter c level f activation plateau = 0 ∨ plateauAfter c level f activation plateau < c.plateauSamples := by
  rcases plateauAfter_cases c level f activation plateau with zero | ⟨next, away, samples⟩
  · exact .inl zero
  · have other : plateauAfter c level f activation plateau ≠ c.plateauSamples := fun reached =>
      stays (by simp [away, samples, reached])
    omega

theorem processTracking_kept (limits : c.Limits) (range : ch.InRange) (follows : ch.Follows c) (hc : count ≤ 1023)
    (change : Int) :
    (processTracking c ch count change).channel.InRange ∧ (processTracking c ch count change).channel.Follows c := by
  have counted : ∀ n, some count = some n → n ≤ 1023 := fun n same => Option.some.inj same ▸ hc
  have filter : 0 ≤ moveToward ch.filter (16 * (count : Int)) c.filterShift ∧
      moveToward ch.filter (16 * (count : Int)) c.filterShift ≤ 16368 := by
    have moved := moveToward_between ch.filter (16 * (count : Int)) c.filterShift
    have before := range.filter
    omega
  have activation : 0 ≤ moveToward ch.activation (16 * (count : Int)) c.activationShift ∧
      moveToward ch.activation (16 * (count : Int)) c.activationShift ≤ 16368 := by
    have moved := moveToward_between ch.activation (16 * (count : Int)) c.activationShift
    have before := range.activation
    omega
  unfold processTracking
  generalize moveToward ch.filter (16 * (count : Int)) c.filterShift = f at filter
  generalize moveToward ch.activation (16 * (count : Int)) c.activationShift = act at activation
  have debounce := levelAndDebounce_lt limits f (f - ch.average) ch.level follows.debounce
  have average := averageAfter_between (c := c) (levelAndDebounce c f (f - ch.average) ch.level ch.debounce).1 filter
    range.average change
  dsimp only
  split
  · exact ⟨{ filter := filter, average := filter, activation := activation, change := average.2, lastCount := counted
             debounce := by simp, plateau := by simp, missed := by simp }, Channel.follows_of_zero limits rfl rfl rfl⟩
  next stays =>
    have plateau := plateauAfter_below follows.plateau stays
    have most := limits.debounce
    have samples := limits.plateau
    exact ⟨{ filter := filter, average := average.1, activation := activation, change := average.2, lastCount := counted
             debounce := by dsimp only; omega, plateau := by dsimp only; omega, missed := by simp },
      ⟨debounce, plateau, Nat.zero_le _⟩⟩

theorem processSeeding_inRange (hc : count ≤ 1023) : (processSeeding count).InRange := by
  have value : 0 ≤ 16 * (count : Int) ∧ 16 * (count : Int) ≤ 16368 := by omega
  exact
    { filter := value, average := value, activation := value, change := (by decide : (-16368 : Int) ≤ 0 ∧ (0 : Int) ≤ 16368)
      lastCount := fun n same => Option.some.inj same ▸ hc
      debounce := Nat.zero_le _, plateau := Nat.zero_le _, missed := Nat.zero_le _ }

theorem processStale_inRange (range : ch.InRange) (hc : count ≤ 1023) : (processStale ch count).InRange :=
  { processSeeding_inRange hc with average := range.average }

/-- R132: the missed count does not pass the stale limit. -/
theorem processMissed_kept (limits : c.Limits) (range : ch.InRange) (follows : ch.Follows c) :
    (processMissed c ch).InRange ∧ (processMissed c ch).Follows c := by
  have missed : (ch.missedAgain c).missed ≤ c.staleLimit := by
    have before := follows.missed
    unfold Channel.missedAgain
    dsimp only
    split <;> omega
  have again : (ch.missedAgain c).InRange :=
    { range with change := ⟨by simp [Channel.missedAgain], by simp [Channel.missedAgain]⟩
                 missed := missed.trans limits.stale }
  unfold processMissed
  split
  · exact ⟨{ again with }, { follows with missed := missed }⟩
  · exact ⟨again, { follows with missed := missed }⟩

/-- R122: a channel's sample, missed or good. -/
theorem processSample_kept (limits : c.Limits) (range : ch.InRange) (follows : ch.Follows c) {sample : Option Nat}
    (good : ∀ n, sample = some n → n ≤ 1023) (change : Int) :
    (processSample c ch sample change).channel.InRange ∧ (processSample c ch sample change).channel.Follows c := by
  unfold processSample
  split
  · exact processMissed_kept limits range follows
  next count =>
    have hc := good count rfl
    split
    · exact processTracking_kept limits range follows hc change
    · exact ⟨processSeeding_inRange hc, Channel.follows_of_zero limits rfl rfl rfl⟩
    · exact ⟨processStale_inRange range hc, Channel.follows_of_zero limits rfl rfl rfl⟩
    · exact ⟨range, follows⟩

end

theorem seededChannel_inRange (c : ChannelConfig) : (seededChannel c).InRange := by
  unfold seededChannel
  split <;> constructor <;> simp [Channel.cleared]

theorem seededChannel_follows {c : ChannelConfig} (limits : c.Limits) : (seededChannel c).Follows c := by
  unfold seededChannel
  split <;> exact Channel.follows_of_zero limits rfl rfl rfl

theorem Channel.cleared_inRange : Channel.cleared.InRange := by
  constructor <;> simp [Channel.cleared]

/-- R121: a good reply counts 1023 at most. -/
theorem replySample_le {c n : Nat} {b0 b1 b2 b3 b4 : Byte} (h : replySample c b0 b1 b2 b3 b4 = some n) : n ≤ 1023 := by
  unfold replySample at h
  dsimp only at h
  split at h
  next good =>
    simp only [Bool.and_eq_true, decide_eq_true_eq] at good
    obtain rfl := Option.some.inj h
    exact good.2
  · cases h

end Sys2Proof.Machine
end

section
/-! SUPPORT. The bounds of the part as one predicate over its blocks, and what each operation on the state keeps of it
(R90, R91, R104, R117, R127, R141, R169, R174, R175). -/

namespace Sys2Proof.Machine

/-- What holds of every record of a table and of the record written holds of every record after the write. -/
theorem Table.get_set_all {α : Type} [DecidableEq α] {cleared : α} {t : Table α} (h : Table.wf cleared t = true)
    {p : Nat → α → Prop} {i : Nat} {v : α} (written : p i v) (all : ∀ j, p j (Table.get cleared t j)) (j : Nat) :
    p j (Table.get cleared (Table.set cleared t i v) j) := by
  by_cases same : j = i
  · rwa [same, Table.get_set_self cleared h]
  · rw [Table.get_set_of_ne cleared t v same]
    exact all j

/-! ### The bounds, block by block -/

/-- R168, R169, R174 to R176: the link's bounds, with `most` entries of the reply queue at most. -/
structure HostLink.Kept (most : Nat) (k : HostLink) : Prop where
  bounded : k.Bounded
  parameters : k.parameters.InRange
  room : k.replies.length ≤ most

/-- R104: the pending list. -/
structure EditsKept (edits : List Edit) : Prop where
  length : edits.length ≤ 64
  targets : (edits.map Edit.target).Nodup

/-- R141: the LATE list. -/
structure LateKept (late : List Nat) : Prop where
  once : late.Nodup
  entries : ∀ i ∈ late, i < 128

/-- R90, R91: the request queue. -/
structure QueueKept (queue : List QueueEntry) : Prop where
  length : queue.length ≤ 32
  passes : ∀ e ∈ queue, e.request.passes ≤ 8

/-- R91: the requests the lanes have taken. -/
structure LanesKept (lanes : Table Lane) : Prop where
  canonical : Table.wf .cleared lanes = true
  passes : ∀ l r, (Table.get .cleared lanes l).request = some r → r.passes ≤ 8

/-- R117, R121, R127, R130, R132: the Flow Monitor under the settings of a site. -/
structure FlowMonitor.Kept (f : FlowMonitor) (site : SiteStore) : Prop where
  canonical : Table.wf .cleared f.channels = true
  range : f.InRange
  follows : site.state = .valid ∨ site.state = .draining → ∀ i,
    (Table.get .cleared f.channels i).Follows (Table.get .cleared site.channels i)

/-- All the bounds that every command keeps, with `most` entries of the reply queue at most. -/
structure State.Kept (most : Nat) (s : State) : Prop where
  link : s.link.Kept most
  edits : EditsKept s.conditions.edits
  late : LateKept s.schedule.late
  queue : QueueKept s.dispatcher.queue
  lanes : LanesKept s.lanes
  flow : s.flow.Kept s.site

/-- The settings that the bounds rest on are in range (R9, R10, R12). -/
structure SiteStore.Ranged (site : SiteStore) : Prop where
  canonical : Table.wf .cleared site.screens = true ∧ Table.wf .cleared site.channels = true
  scheduleCount : site.header.scheduleCount ≤ 128
  priorities : ∀ i, (Table.get .cleared site.screens i).priority ≤ 3
  limits : ∀ i, (Table.get .cleared site.channels i).Limits

/-- What the bounds rest on and a command finds: settings in range, cycles in VALID (R136), and tables that are read in
LOADING (R161). -/
structure State.Settled (s : State) : Prop where
  site : s.site.Ranged
  cycle : s.flow.cycle.isSome = true → s.site.state = .valid
  reading : s.transfer.state = .readTables → s.site.state = .loading

theorem Header.scheduleCount_le {h : Header} (range : h.inRange = true) : h.scheduleCount ≤ 128 := by
  simp only [Header.inRange, Bool.and_eq_true, decide_eq_true_eq] at range
  omega

theorem Screen.priority_le {c : Screen} (range : c.inRange = true) : c.priority ≤ 3 := by
  simp only [Screen.inRange, Bool.and_eq_true, decide_eq_true_eq] at range
  exact range.2

theorem State.settled {s : State} (canonical : s.Canonical) (ranges : s.RecordsInRange) (consistent : s.Consistent) :
    s.Settled where
  site :=
    { canonical := ⟨canonical.site.screens, canonical.site.channels⟩
      scheduleCount := Header.scheduleCount_le (ranges .header 0)
      priorities := fun i => Screen.priority_le (ranges .screens i)
      limits := fun i => ChannelConfig.limits_of_inRange (ranges .channels i) }
  cycle := consistent.cycle
  reading reads := consistent.loads (consistent.reading (.inr (.inl reads)))

theorem State.kept {s : State} (canonical : s.Canonical) (lists : s.ListsBounded) (link : s.link.Bounded)
    (parameters : s.link.parameters.InRange) (flow : s.flow.InRange) (counts : s.CountsFollowSettings) : s.Kept 8 where
  link := ⟨link, parameters, link.replies⟩
  edits := ⟨lists.edits, lists.targets⟩
  late := ⟨lists.late, lists.lateEntries⟩
  queue := ⟨lists.queue, lists.passes⟩
  lanes := ⟨canonical.lanes, lists.granted⟩
  flow :=
    { canonical := canonical.channels, range := flow
      follows := fun site i =>
        have ⟨debounce, plateau, missed⟩ := counts site i
        ⟨debounce, plateau, missed⟩ }

/-- R141: distinct indices below 128 are 128 at most. -/
theorem LateKept.length {late : List Nat} (h : LateKept late) : late.length ≤ 128 := by
  have within : late ⊆ List.range 128 := fun i hi => List.mem_range.mpr (h.entries i hi)
  simpa using (h.once.subperm within).length_le

section

variable {s t : State} {most : Nat}

theorem State.Kept.lists (h : s.Kept most) : s.ListsBounded where
  queue := h.queue.length
  edits := h.edits.length
  targets := h.edits.targets
  late := h.late.once
  lateCount := h.late.length
  lateEntries := h.late.entries
  passes := h.queue.passes
  granted := h.lanes.passes

theorem State.Kept.counts (h : s.Kept most) : s.CountsFollowSettings := fun site i =>
  have follows := h.flow.follows site i
  ⟨follows.debounce, follows.plateau, follows.missed⟩

theorem State.Kept.mono {more : Nat} (h : s.Kept most) (le : most ≤ more) : s.Kept more :=
  { h with link := { h.link with room := h.link.room.trans le } }

/-! ### Notices, drops and parameters -/

theorem HostLink.Kept.offer {k : HostLink} (h : k.Kept most) (n : Notice) : (k.offer n).Kept most where
  bounded := h.bounded.offer n
  parameters := k.offer_parameters n ▸ h.parameters
  room := k.offer_replies n ▸ h.room

theorem State.Kept.offer (h : s.Kept most) (n : Notice) : (s.offer n).Kept most :=
  { h with link := h.link.offer n }

theorem State.Kept.drops (h : s.Kept most) (reason : DropReason) (requests : List Request) :
    (requests.foldl (State.drop reason) s).Kept most :=
  List.foldlRecOn requests _ h fun t kept r _ =>
    (show (t.setScreen r.screen .idle).Kept most from { kept with }).offer (r.droppedNotice reason)

/-! ### Schedule offers and turns (R104, R105, R111, R141, R144) -/

theorem EditsKept.placed {edits placed : List Edit} {e : Edit} (h : EditsKept edits) (eq : placeEdit e edits = some placed) :
    EditsKept placed := by
  rcases placeEdit_some h.targets eq with ⟨before, x, after, rfl, same, -, rfl⟩ | ⟨other, room, rfl⟩
  · exact ⟨by simpa using h.length, nodup_placed h.targets same⟩
  · refine ⟨by simpa using room, ?_⟩
    rw [List.map_append]
    refine h.targets.append (List.nodup_singleton _) (List.disjoint_singleton.mpr fun listed => ?_)
    obtain ⟨x, hx, same⟩ := List.mem_map.mp listed
    exact other x hx same

theorem State.Kept.offerEntry (h : s.Kept most) {i : Nat} (hi : i < 128) : (s.offerEntry i).Kept most := by
  unfold State.offerEntry
  split
  next edits placed =>
    have kept : EditsKept edits := by
      unfold State.offerPlaced at placed
      split at placed
      · exact h.edits.placed placed
      · cases placed
    exact { h with
      edits := kept
      late := ⟨h.late.once.filter _, fun j listed => h.late.entries j (List.mem_of_mem_filter listed)⟩ }
  · unfold State.markLate
    split
    · exact h
    next fresh =>
      have marked : LateKept (s.schedule.late ++ [i]) :=
        ⟨h.late.once.append (List.nodup_singleton i) (List.disjoint_singleton.mpr fresh), fun j listed =>
          (List.mem_append.mp listed).elim (h.late.entries j) fun same => List.mem_singleton.mp same ▸ hi⟩
      exact State.Kept.offer (s := s.setLate (s.schedule.late ++ [i])) { h with late := marked } _

theorem State.Kept.offerEntries (h : s.Kept most) {entries : List Nat} (within : ∀ i ∈ entries, i < 128) :
    (s.offerEntries entries).Kept most :=
  List.foldlRecOn entries _ h fun _ kept i hi => kept.offerEntry (within i hi)

theorem State.Kept.catchUp (h : s.Kept most) (site : s.site.Ranged) : s.catchUp.Kept most := by
  refine State.Kept.offerEntries (s := s.setLate []) { h with late := ⟨List.nodup_nil, nofun⟩ } fun i hi => ?_
  have candidate := (s.lastPerTarget_sublist _).subset hi
  rcases List.mem_append.mp candidate with late | due
  · exact h.late.entries i (List.mem_of_mem_filter late)
  · exact ((s.dueToday_spec.2 i).mp due).1.1.trans_le site.scheduleCount

theorem State.Kept.refireLate (h : s.Kept most) : s.refireLate.Kept most := h.offerEntries h.late.entries

theorem State.Kept.setTurn (h : s.Kept most) (turn : TurnState) :
    ({ s with conditions := { s.conditions with turn := turn } } : State).Kept most := { h with }

theorem State.Kept.applyTurn (h : s.Kept most) (cause : TurnCause) : (s.applyTurn cause).Kept most := by
  have applied : s.applied.Kept most := { h with edits := ⟨Nat.zero_le _, List.nodup_nil⟩ }
  unfold State.applyTurn
  exact ((applied.offer _).setTurn .idle).refireLate

theorem State.Kept.beginTurn (h : s.Kept most) (cause : TurnCause) : (s.beginTurn cause).Kept most := by
  unfold State.beginTurn
  split
  · exact { h with }
  · exact h.applyTurn cause

theorem State.Kept.askTurn (h : s.Kept most) (cause : TurnCause) : (s.askTurn cause).Kept most := by
  unfold State.askTurn
  split
  · exact h.beginTurn cause
  · exact h

/-! ### The Flow Monitor (R119 to R134) -/

/-- No count of a channel is bounded outside VALID and DRAINING. -/
theorem FlowMonitor.Kept.of_closed {f g : FlowMonitor} {site next : SiteStore} (h : f.Kept site)
    (channels : g.channels = f.channels) (cycle : g.cycle = none) (closed : next.state ≠ .valid ∧ next.state ≠ .draining) :
    g.Kept next where
  canonical := channels ▸ h.canonical
  range := ⟨channels ▸ h.range.channels, fun _ _ _ some => nomatch cycle.symm.trans some⟩
  follows site := absurd site (not_or.mpr closed)

theorem State.Kept.setChannel (h : s.Kept most) {i : Nat} {ch : Channel} (range : ch.InRange)
    (follows : ch.Follows (s.channelConfig i)) : (s.setChannel i ch).Kept most :=
  { h with
    flow :=
      { canonical := Table.wf_set Channel.cleared h.flow.canonical i ch
        range := ⟨Table.get_set_all (p := fun _ c => c.InRange) h.flow.canonical range h.flow.range.channels,
          h.flow.range.samples⟩
        follows := fun opened => Table.get_set_all (p := fun j c => c.Follows (s.channelConfig j)) h.flow.canonical follows
          (h.flow.follows opened) } }

theorem State.Kept.processChannel (h : s.Kept most) (site : s.site.Ranged) (valid : s.site.state = .valid)
    {sample : Nat × Option Nat} (good : ∀ n, sample.2 = some n → n ≤ 1023) : (s.processChannel sample).Kept most := by
  obtain ⟨range, follows⟩ := processSample_kept (site.limits sample.1) (h.flow.range.channels sample.1)
    (h.flow.follows (.inl valid) sample.1) good (s.channel (s.channelConfig sample.1).reference).change
  exact List.foldlRecOn _ _ (h.setChannel range follows) fun t kept n _ => kept.offer n

end

end Sys2Proof.Machine
end

section
/-! SUPPORT. What the Flow Monitor, the lanes, the dispatcher and Egress Control keep of the bounds (R90 to R98, R117 to
R137, R152, R155). -/

namespace Sys2Proof.Machine

section

variable {s : State} {most : Nat}

/-! ### Poll cycles (R119 to R122) -/

theorem State.processChannel_site (s : State) (sample : Nat × Option Nat) : (s.processChannel sample).site = s.site :=
  List.foldlRecOn (motive := fun t : State => t.site = s.site) _ _ rfl fun _ eq _ _ => eq

theorem State.Kept.processCycle (h : s.Kept most) (site : s.site.Ranged) (valid : s.site.state = .valid)
    {samples : List (Nat × Option Nat)} (good : ∀ i n, (i, some n) ∈ samples → n ≤ 1023) :
    (s.processCycle samples).Kept most := by
  refine (List.foldlRecOn (motive := fun t : State => t.Kept most ∧ t.site = s.site) _ _ ⟨h, rfl⟩
    fun t kept sample listed => ?_).1
  have polled : sample ∈ samples :=
    (List.mem_append.mp listed).elim List.mem_of_mem_filter List.mem_of_mem_filter
  obtain ⟨kept, same⟩ := kept
  exact ⟨kept.processChannel (same ▸ site) (same ▸ valid) fun n eq => good sample.1 n (eq ▸ polled),
    (t.processChannel_site sample).trans same⟩

theorem State.Kept.setCycle (h : s.Kept most) {cycle : Option PollCycle}
    (good : ∀ c i n, cycle = some c → (i, some n) ∈ c.samples → n ≤ 1023) : (s.setCycle cycle).Kept most :=
  { h with flow := { h.flow with range := ⟨h.flow.range.channels, good⟩ } }

theorem State.Kept.sampleTimerExpiry (h : s.Kept most) : s.sampleTimerExpiry.Kept most := by
  unfold State.sampleTimerExpiry
  split
  · exact h
  · have started : s.startSampleTimer.Kept most :=
      { h with flow := { h.flow with range := ⟨h.flow.range.channels, h.flow.range.samples⟩ } }
    dsimp only
    split
    · exact started.setCycle fun c i n eq listed => nomatch Option.some.inj eq ▸ listed
    · exact started

theorem State.Kept.pollSent (h : s.Kept most) : s.pollSent.Kept most := by
  unfold State.pollSent
  split
  next cycle polling =>
    split
    · refine h.setCycle fun c i n eq listed => ?_
      obtain rfl := Option.some.inj eq
      exact h.flow.range.samples cycle i n polling listed
    · exact h
  · exact h

/-- R120 to R122: a sample joins its cycle, and the last one has all of them processed. -/
theorem State.Kept.judgeSample (h : s.Kept most) (settled : s.Settled) {sample : PollCycle → Option Nat}
    (good : ∀ cycle n, sample cycle = some n → n ≤ 1023) : (s.judgeSample sample).Kept most := by
  unfold State.judgeSample
  split
  · exact h
  next cycle polling =>
    have samples (i n : Nat) (listed : (i, some n) ∈ cycle.samples ++ [(cycle.current, sample cycle)]) : n ≤ 1023 := by
      rcases List.mem_append.mp listed with before | now
      · exact h.flow.range.samples cycle i n polling before
      · exact good cycle n (Prod.mk.inj (List.mem_singleton.mp now)).2.symm
    split
    · dsimp only
      split
      · refine h.setCycle fun c i n eq listed => ?_
        obtain rfl := Option.some.inj eq
        exact samples i n listed
      · have ended : (s.setCycle none).Kept most := h.setCycle nofun
        exact ended.processCycle settled.site (settled.cycle (polling ▸ rfl)) samples
    · exact h

/-! ### Lanes and slots (R41, R76 to R82) -/

theorem State.Kept.setLane (h : s.Kept most) (l : Nat) {v : Lane} (passes : ∀ r, v.request = some r → r.passes ≤ 8) :
    (s.setLane l v).Kept most :=
  { h with
    lanes :=
      { canonical := Table.wf_set Lane.cleared h.lanes.canonical l v
        passes := Table.get_set_all (p := fun _ lane => ∀ r, lane.request = some r → r.passes ≤ 8) h.lanes.canonical passes
          h.lanes.passes } }

theorem State.Kept.freeLane (h : s.Kept most) (l : Nat) : (s.freeLane l).Kept most := h.setLane l nofun

theorem State.Kept.setScreen (h : s.Kept most) (i : Nat) (v : ScreenStatus) : (s.setScreen i v).Kept most := { h with }

theorem State.Kept.setHolders (h : s.Kept most) (holders : List Nat) : (s.setHolders holders).Kept most := { h with }

theorem State.Kept.storeRecord (h : s.Kept most) (n l : Nat) (r : RouteRecord) : (s.storeRecord n l r).Kept most := by
  have slot : ((s.setSlot n (some { record := r, screen := r.screen, hold := s.link.parameters.resultHold })).setScreen
      r.screen (.ready n)).Kept most := { h with }
  exact (slot.offer _).freeLane l

theorem State.Kept.askSlot (h : s.Kept most) (l : Nat) (r : RouteRecord) : (s.askSlot l r).Kept most := by
  unfold State.askSlot
  split
  · exact h.storeRecord _ l r
  · have held := h.setLane l (v := { s.lane l with state := .holding, record := some r }) (h.lanes.passes l)
    exact held.setHolders _

theorem State.Kept.grantSlot (h : s.Kept most) (n : Nat) : (s.grantSlot n).Kept most := by
  unfold State.grantSlot
  split
  · exact h
  · split
    · exact h
    · exact (h.setHolders _).storeRecord n _ _

theorem State.Kept.freeSlot (h : s.Kept most) (n screen : Nat) : (s.freeSlot n screen).Kept most := by
  have freed : ((s.setSlot n none).setScreen screen .idle).Kept most := { h with }
  exact freed.grantSlot n

theorem State.Kept.withSearch (h : s.Kept most) (l : Nat) (f : Frontier) : (s.withSearch l f).Kept most :=
  h.setLane l (v := { s.lane l with labels := f.labels, heap := f.heap, trimmed := f.trimmed }) (h.lanes.passes l)

theorem State.Kept.recordComplete (h : s.Kept most) (l : Nat) : (s.recordComplete l).Kept most := by
  unfold State.recordComplete
  dsimp only
  split
  · split
    · unfold State.completeSearch
      dsimp only
      split <;> exact (h.withSearch l _).askSlot l _
    · exact h
  · exact h

theorem State.Kept.slotGrant (h : s.Kept most) : s.slotGrant.Kept most := by
  unfold State.slotGrant
  split
  · exact h.grantSlot _
  · exact h

theorem State.Kept.holdExpiry (h : s.Kept most) (n : Nat) : (s.holdExpiry n).Kept most := by
  unfold State.holdExpiry
  split
  · exact h
  · exact (h.offer _).freeSlot n _

theorem State.Kept.collect (h : s.Kept most) (screen : Nat) : (s.collect screen).state.Kept most := by
  unfold State.collect
  split
  · exact h
  · split
    · split
      · exact h.freeSlot _ screen
      · exact h
    · exact h

theorem State.Kept.withdraw (h : s.Kept most) (l : Nat) : (s.withdraw l).Kept most := (h.setHolders _).freeLane l

/-! ### The request queue (R87 to R97) -/

theorem State.Kept.setQueue (h : s.Kept most) {queue : List QueueEntry} (kept : QueueKept queue) :
    (s.setQueue queue).Kept most := { h with queue := kept }

theorem State.Kept.cancel (h : s.Kept most) (screen : Nat) : (s.cancel screen).state.Kept most := by
  unfold State.cancel
  split
  · exact h
  · split
    · exact h
    · exact (h.setQueue ⟨(List.length_filter_le _ _).trans h.queue.length,
        fun e listed => h.queue.passes e (List.mem_of_mem_filter listed)⟩).setScreen screen .idle
    · exact (h.withdraw _).setScreen screen .idle
    · exact h.freeSlot _ screen

/-- R88 check 8: a request that is accepted finds room. -/
theorem State.room_of_accepted {r : Request} (h : s.routeRefusal r = none) : s.dispatcher.queue.length < 32 := by
  unfold State.routeRefusal at h
  repeat' split at h
  all_goals cases h
  next room => exact Nat.lt_of_not_le room

theorem State.Kept.route (h : s.Kept most) {r : Request} (fresh : r.passes = 0) : (s.route r).state.Kept most := by
  unfold State.route
  split
  · exact h
  next accepted =>
    have room := State.room_of_accepted accepted
    refine (h.setQueue ⟨?_, fun e listed => ?_⟩).setScreen r.screen .queued
    · rwa [List.length_append, List.length_singleton]
    · rcases List.mem_append.mp listed with before | appended
      · exact h.queue.passes e before
      · obtain rfl := List.mem_singleton.mp appended
        exact fresh.trans_le (Nat.zero_le _)

/-- R91, R92: a request passed over has passes to gain, since 8 passes make its priority the highest. -/
theorem State.passed_passes (site : s.site.Ranged) (queue : QueueKept s.dispatcher.queue) {chosen e : QueueEntry}
    (listed : e ∈ s.dispatcher.queue) : (s.passed (s.priorityOf chosen) e).request.passes ≤ 8 := by
  have before := queue.passes e listed
  unfold State.passed
  split
  next below =>
    simp only [Bool.and_eq_true, decide_eq_true_eq] at below
    obtain ⟨normal, below⟩ := below
    rw [State.priorityOf_normal normal, State.priorityOf_normal normal] at below
    have own := site.priorities e.request.screen
    have most : (s.screenRecord chosen.request.screen).priority ≤ 3 := site.priorities _
    have short : ¬ 8 ≤ e.request.passes := fun eight => by
      rw [if_pos (.inr eight)] at below
      split at below <;> omega
    show e.request.passes + 1 ≤ 8
    omega
  · exact before

theorem State.Kept.startSearch (h : s.Kept most) (l : Nat) {r : Request} (passes : r.passes ≤ 8) :
    (s.startSearch l r).Kept most := by
  have taken : (s.setLane l (s.searchingLane l r)).Kept most :=
    h.setLane l fun q eq => Option.some.inj eq ▸ passes
  unfold State.startSearch
  dsimp only
  split
  · exact taken.askSlot l _
  · split
    · exact taken.askSlot l _
    · exact taken

theorem State.Kept.grantEntry (h : s.Kept most) (site : s.site.Ranged) (l place : Nat) :
    (s.grantEntry l place).Kept most := by
  unfold State.grantEntry
  split
  · exact h
  next e entry =>
    have listed : e ∈ s.dispatcher.queue := List.mem_of_getElem? entry
    have queue : QueueKept ((s.dispatcher.queue.take place).map (s.passed (s.priorityOf e)) ++
        s.dispatcher.queue.drop (place + 1)) := by
      constructor
      · have most := h.queue.length
        simp only [List.length_append, List.length_map, List.length_take, List.length_drop]
        omega
      · intro x hx
        rcases List.mem_append.mp hx with ahead | behind
        · obtain ⟨y, hy, rfl⟩ := List.mem_map.mp ahead
          exact State.passed_passes site h.queue (List.mem_of_mem_take hy)
        · exact h.queue.passes x (List.mem_of_mem_drop behind)
    exact ((h.setQueue queue).setScreen _ _).startSearch l (h.queue.passes e listed)

theorem State.Kept.grant (h : s.Kept most) (site : s.site.Ranged) : s.grant.Kept most := by
  unfold State.grant
  split
  · split
    · exact h.grantEntry site _ _
    · exact h
  · exact h

/-! ### Dropping and handing back (R62, R63, R96, R97) -/

theorem State.Kept.dropQueue (h : s.Kept most) : s.dropQueue.Kept most :=
  (h.drops .site _).setQueue ⟨Nat.zero_le _, nofun⟩

theorem QueueKept.marked {queue : List QueueEntry} (h : QueueKept queue) (mark : Bool) :
    QueueKept (queue.map fun e => { e with egressMark := mark }) := by
  refine ⟨(List.length_map _).trans_le h.length, fun e listed => ?_⟩
  obtain ⟨x, hx, rfl⟩ := List.mem_map.mp listed
  exact h.passes x hx

/-- R96: the requests handed back join the head of the queue, and entries beyond 32 leave its tail. -/
theorem State.Kept.requeued (h : s.Kept most) {requests : List Request} (passes : ∀ r ∈ requests, r.passes ≤ 8) :
    (s.requeue requests).trimQueue.Kept most := by
  have screens : (requests.foldl (fun (t : State) (r : Request) => t.setScreen r.screen .queued) s).Kept most :=
    List.foldlRecOn requests _ h fun _ kept r _ => kept.setScreen r.screen .queued
  have same : (requests.foldl (fun (t : State) (r : Request) => t.setScreen r.screen .queued) s).dispatcher.queue =
      s.dispatcher.queue :=
    List.foldlRecOn (motive := fun t : State => t.dispatcher.queue = s.dispatcher.queue) requests _ rfl
      fun _ eq _ _ => eq
  unfold State.requeue State.trimQueue
  dsimp only
  rw [← State.drop_setQueue]
  refine State.Kept.setQueue (screens.drops .mode _) ⟨List.length_take_le _ _, fun e listed => ?_⟩
  rw [State.setQueue_dispatcher_queue] at listed
  rcases List.mem_append.mp (List.mem_of_mem_take listed) with handed | before
  · obtain ⟨r, hr, rfl⟩ := List.mem_map.mp handed
    exact passes r hr
  · exact h.queue.passes e (same ▸ before)

theorem State.Kept.takeBack (h : s.Kept most) {requests : List Request} (passes : ∀ r ∈ requests, r.passes ≤ 8) :
    (s.takeBack requests).Kept most := by
  unfold State.takeBack
  split
  · exact (h.drops .site _).requeued fun r listed => passes r (List.mem_of_mem_filter listed)
  · exact h.drops .site _

theorem State.Kept.handBack (h : s.Kept most) : s.handBack.Kept most := by
  have freed : (s.workingLanes.foldl State.withdraw s).Kept most :=
    List.foldlRecOn s.workingLanes _ h fun _ kept l _ => kept.withdraw l
  refine freed.takeBack fun r handed => ?_
  obtain ⟨l, -, request⟩ := List.mem_filterMap.mp handed
  exact h.lanes.passes l r request

theorem State.Kept.markQueue (h : s.Kept most) (mark : Bool) : (s.markQueue mark).Kept most :=
  h.setQueue (h.queue.marked mark)

/-! ### Egress Control (R149 to R155) -/

theorem State.Kept.setEgress (h : s.Kept most) (e : EgressControl) : (s.setEgress e).Kept most := { h with }

/-- R152: a drain that is abandoned leaves the settings and the counts as they are. -/
theorem State.Kept.abandonDrain (h : s.Kept most) : s.abandonDrain.Kept most := by
  unfold State.abandonDrain
  split
  next draining =>
    have flow : ((s.setDrain none).moveSite .valid).startSampleTimer.flow.Kept
        ((s.setDrain none).moveSite .valid).startSampleTimer.site :=
      ⟨h.flow.canonical, ⟨h.flow.range.channels, h.flow.range.samples⟩, fun _ => h.flow.follows (.inr draining)⟩
    have moved : ((s.setDrain none).moveSite .valid).startSampleTimer.Kept most := { h with flow := flow }
    exact moved.offer _
  · exact h

theorem State.Kept.enterEgress (h : s.Kept most) (cause : EntryCause) : (s.enterEgress cause).Kept most :=
  (((h.setEgress _).abandonDrain.markQueue true).handBack).offer _

theorem State.Kept.resume (h : s.Kept most) : s.resume.Kept most :=
  (((h.setEgress _).markQueue false).handBack).offer _

theorem State.Kept.egressEnter (h : s.Kept most) : s.egressEnter.state.Kept most := by
  unfold State.egressEnter
  split
  · exact h
  · exact h.enterEgress .drill

theorem State.Kept.egressResume (h : s.Kept most) : s.egressResume.state.Kept most := by
  unfold State.egressResume
  split
  · exact h
  · split
    · exact h
    · exact h.resume

theorem State.Kept.alarmAsserted (h : s.Kept most) : s.alarmAsserted.Kept most := by
  unfold State.alarmAsserted
  split
  · dsimp only
    split
    · exact (h.setEgress _).enterEgress .alarm
    · exact (h.setEgress _).offer _
  · exact h

theorem State.Kept.alarmClear (h : s.Kept most) : s.alarmClear.Kept most := by
  unfold State.alarmClear
  split
  · dsimp only
    split
    · exact h.setEgress _
    · exact (h.setEgress _).offer _
  · exact h

end

end Sys2Proof.Machine
end

section
/-! SUPPORT. What the Site Store, the Condition and Schedule Units and the Site Transfer Unit keep of the bounds (R13 to R22,
R101 to R116, R138 to R145, R158 to R166). -/

namespace Sys2Proof.Machine

/-! ### Records in range (R17, R161) -/

theorem Record.inRange_of_ofBytes {t : TableId} {bytes : List Byte} {r : Record} (h : Record.ofBytes t bytes = some r) :
    r.inRange = true := (Option.filter_eq_some_iff.mp h).2

theorem SiteStore.Ranged.setRecord {site : SiteStore} (h : site.Ranged) (i : Nat) {r : Record} (range : r.inRange = true) :
    (site.setRecord i r).Ranged := by
  cases r with
  | header r => exact { h with scheduleCount := Header.scheduleCount_le range }
  | screen r =>
    exact { h with
      canonical := ⟨Table.wf_set Screen.cleared h.canonical.1 i r, h.canonical.2⟩
      priorities := Table.get_set_all (p := fun _ c => c.priority ≤ 3) h.canonical.1 (Screen.priority_le range)
        h.priorities }
  | channel r =>
    exact { h with
      canonical := ⟨h.canonical.1, Table.wf_set ChannelConfig.cleared h.canonical.2 i r⟩
      limits := Table.get_set_all (p := fun _ c => c.Limits) h.canonical.2 (ChannelConfig.limits_of_inRange range)
        h.limits }
  | node | edge | adjacency | group | member | directory | gate | profile | schedule => exact { h with }

theorem SiteStore.setRecord_state (site : SiteStore) (i : Nat) (r : Record) : (site.setRecord i r).state = site.state := by
  cases r <;> rfl

theorem SiteStore.setRecords_state (site : SiteStore) (first : Nat) (records : List Record) :
    (site.setRecords first records).state = site.state := by
  induction records generalizing site first with
  | nil => rfl
  | cons r rest ih => exact (ih _ _).trans (site.setRecord_state first r)

section

variable {s : State} {most : Nat}

/-! ### The site state (R13 to R15) -/

theorem State.Kept.setTransfer (h : s.Kept most) (t : TransferUnit) : (s.setTransfer t).Kept most := { h with }

theorem State.Kept.setDrain (h : s.Kept most) (drain : Option Drain) : (s.setDrain drain).Kept most :=
  { h with flow := ⟨h.flow.canonical, h.flow.range, h.flow.follows⟩ }

/-- Outside VALID and DRAINING no count is bound by its settings. -/
theorem State.Kept.moveSite_closed (h : s.Kept most) {next : SiteState} (closed : next ≠ .valid ∧ next ≠ .draining) :
    (s.moveSite next).Kept most :=
  { h with flow := h.flow.of_closed rfl (if_neg closed.1) closed }

theorem State.Kept.leaveSite (h : s.Kept most) (next : SiteState) (closed : next ≠ .valid ∧ next ≠ .draining)
    (cause : SiteCause) : (s.moveSiteWithNotice next cause).Kept most := (h.moveSite_closed closed).offer _

/-- R15: the counts of a VALID site stay bound by its settings while it drains. -/
theorem State.Kept.drainSite (h : s.Kept most) (valid : s.site.state = .valid) (cause : SiteCause) :
    (s.moveSiteWithNotice .draining cause).Kept most := by
  have moved : (s.moveSite .draining).Kept most :=
    { h with flow := ⟨h.flow.canonical, ⟨h.flow.range.channels, nofun⟩, fun _ => h.flow.follows (.inl valid)⟩ }
  exact moved.offer _

theorem State.Kept.startLoad (h : s.Kept most) (address : Nat) : (s.startLoad address).Kept most := { h with }

theorem State.Kept.proceed (h : s.Kept most) (work : Drain) (cause : SiteCause) : (s.proceed work cause).Kept most := by
  cases work with
  | openSession => exact h.leaveSite .editing ⟨nofun, nofun⟩ cause
  | load address => exact (h.leaveSite .loading ⟨nofun, nofun⟩ cause).startLoad address

theorem State.Kept.leaveValid (h : s.Kept most) (valid : s.site.state = .valid) (work : Drain) (cause : SiteCause) :
    (s.leaveValid work cause).Kept most := by
  have same : s.dropQueue.site = s.site :=
    List.foldlRecOn (motive := fun t : State => t.site = s.site) _ _ rfl fun _ eq _ _ => eq
  have dropped := h.dropQueue
  unfold State.leaveValid
  dsimp only
  split
  · exact (dropped.setDrain (some work)).drainSite ((congrArg SiteStore.state same).trans valid) cause
  · exact dropped.proceed work cause

theorem State.Kept.siteOpen (h : s.Kept most) : s.siteOpen.state.Kept most := by
  unfold State.siteOpen
  split
  · exact h
  · split
    · exact h
    · split
      · exact h.proceed .openSession .openSession
      · exact h.proceed .openSession .openSession
      · exact h
      next valid => exact h.leaveValid valid .openSession .openSession
      · exact h
      · exact h

theorem State.Kept.siteLoad (h : s.Kept most) (address : Nat) : (s.siteLoad address).state.Kept most := by
  unfold State.siteLoad
  split
  · exact h
  · split
    · exact h
    · split
      · exact h
      · split
        · exact h.proceed (.load address) .load
        · exact h.proceed (.load address) .load
        · exact h.proceed (.load address) .load
        next valid => exact h.leaveValid valid (.load address) .load
        · exact h
        · exact h

theorem State.Kept.drainEnd (h : s.Kept most) : s.drainEnd.Kept most := by
  unfold State.drainEnd
  split
  · split
    · exact (h.setDrain none).proceed _ _
    · exact h
  · exact h

/-! ### Entering VALID (R22) -/

/-- R136: every channel is seeded under its settings, or OFF. -/
theorem FlowMonitor.Kept.seeded {f : FlowMonitor} {site : SiteStore} (ranged : site.Ranged)
    (channels : f.channels = Table.tabulate .cleared 64 fun i => seededChannel (Table.get .cleared site.channels i))
    (cycle : f.cycle = none) : f.Kept site := by
  have read (i : Nat) : (Table.get .cleared f.channels i).InRange ∧
      (Table.get .cleared f.channels i).Follows (Table.get .cleared site.channels i) := by
    rw [channels, Table.get_tabulate]
    split
    · exact ⟨seededChannel_inRange _, seededChannel_follows (ranged.limits i)⟩
    · exact ⟨Channel.cleared_inRange, Channel.follows_of_zero (ranged.limits i) rfl rfl rfl⟩
  exact
    { canonical := channels ▸ Table.wf_tabulate _ _ _
      range := ⟨fun i => (read i).1, fun _ _ _ polling => nomatch cycle.symm.trans polling⟩
      follows := fun _ i => (read i).2 }

theorem State.entryBase_ranged (site : s.site.Ranged) (cause : SiteCause) : (s.entryBase cause).site.Ranged := { site with }

theorem State.Kept.entryBase (h : s.Kept most) (site : s.site.Ranged) (cause : SiteCause) :
    (s.entryBase cause).Kept most where
  link := h.link.offer _
  edits := ⟨Nat.zero_le _, List.nodup_nil⟩
  late := ⟨List.nodup_nil, nofun⟩
  queue := h.queue
  lanes := h.lanes
  flow := .seeded (s.entryBase_ranged site cause) (s.entryBase_channels cause) rfl

theorem State.Kept.enterValid (h : s.Kept most) (site : s.site.Ranged) (cause : SiteCause) :
    (s.enterValid cause).Kept most := by
  have base := h.entryBase site cause
  have caughtUp : (s.entryCaughtUp cause).Kept most := by
    unfold State.entryCaughtUp
    split
    · exact base.catchUp (s.entryBase_ranged site cause)
    · exact base
  rw [State.enterValid_eq]
  exact { caughtUp.applyTurn .site with }

theorem State.Kept.siteClose (h : s.Kept most) (site : s.site.Ranged) : s.siteClose.state.Kept most := by
  unfold State.siteClose
  split
  · exact h
  · split
    · split
      · exact h.enterValid site .close
      · exact h.leaveSite .invalid ⟨nofun, nofun⟩ .close
    · exact h

/-- R17: the tables are written in EDITING and INVALID, where no count is bound by its settings. -/
theorem State.Kept.tableWrite (h : s.Kept most) (settled : s.Settled) (table first : Nat) (bytes : List Byte) :
    (s.tableWrite table first bytes).state.Kept most := by
  unfold State.tableWrite
  split
  · exact h
  next opened =>
    have closed : s.site.state ≠ .valid ∧ s.site.state ≠ .draining := by
      constructor <;> intro other <;> simp [other] at opened
    split
    · exact h
    · dsimp only
      split
      · exact h
      · split
        · exact h
        next records _ =>
          have stays := s.site.setRecords_state first records
          have cycle : s.flow.cycle = none := by
            rw [← Option.not_isSome_iff_eq_none]
            exact fun polling => closed.1 (settled.cycle polling)
          exact { h with flow := h.flow.of_closed rfl cycle (stays.symm ▸ closed) }

/-! ### Turns, conditions and the clock (R103 to R111, R138 to R145) -/

theorem State.Kept.setEdits (h : s.Kept most) {edits : List Edit} (kept : EditsKept edits) :
    (s.setEdits edits).Kept most := { h with edits := kept }

theorem State.Kept.condition (h : s.Kept most) (target : Option Target) (value : Nat) :
    (s.condition target value).state.Kept most := by
  unfold State.condition
  split
  · exact h
  · split
    · exact h
    · split
      · exact h
      · split
        · exact h
        · split
          · exact h
          next placed => exact h.setEdits (h.edits.placed placed)

theorem State.Kept.turnNow (h : s.Kept most) : s.turnNow.state.Kept most := by
  unfold State.turnNow
  split
  · exact h
  · split
    · exact h
    · split
      · exact h.beginTurn .request
      · exact h

theorem State.Kept.turnTimerExpiry (h : s.Kept most) : s.turnTimerExpiry.Kept most := by
  unfold State.turnTimerExpiry
  split
  · exact h
  · have started : ({ s with conditions := { s.conditions with timer := some s.link.parameters.turnPeriod } } : State).Kept
        most := { h with }
    exact started.askTurn .timer

theorem State.Kept.applyStep (h : s.Kept most) : s.applyStep.Kept most := by
  unfold State.applyStep
  split
  · split
    · exact h
    · exact h.applyTurn _
  · exact h

theorem State.Kept.setClock (h : s.Kept most) (site : s.site.Ranged) (second day : Nat) :
    (s.setClock second day).state.Kept most := by
  have written : (s.writeClock second day).Kept most := { h with }
  unfold State.setClock
  split
  · exact h
  · unfold accept
    dsimp only
    split
    · exact (written.catchUp site).askTurn .schedule
    · exact written

theorem State.Kept.minuteBoundary (h : s.Kept most) (site : s.site.Ranged) : s.minuteBoundary.Kept most := by
  unfold State.minuteBoundary
  split
  · have taken : ({ s with schedule := { s.schedule with boundaryDue := false } } : State).Kept most := { h with }
    dsimp only
    split
    · exact taken.offerEntries fun i due =>
        (List.mem_range.mp (List.mem_of_mem_filter due)).trans_le site.scheduleCount
    · exact taken
  · exact h

/-! ### Transfers (R158 to R166) -/

theorem State.Kept.endTransfer (h : s.Kept most) (t : TransferUnit) (operation : Operation) (outcome : TransferOutcome)
    (generation : Option Word16) : (s.endTransfer t operation outcome generation).Kept most :=
  (h.setTransfer _).offer _

theorem State.Kept.failLoad (h : s.Kept most) (outcome : TransferOutcome) : (s.failLoad outcome).Kept most :=
  (h.leaveSite .invalid ⟨nofun, nofun⟩ .load).endTransfer _ _ _ _

theorem State.Kept.finishTables (h : s.Kept most) (site : s.site.Ranged) : s.finishTables.Kept most := by
  unfold State.finishTables State.validateLoad
  dsimp only
  split
  · split
    · exact h.failLoad _
    · exact (h.enterValid site .load).endTransfer _ _ _ _
  · exact h.failLoad _

/-- R161: a record that is written in LOADING is in range, and no count is bound by its settings yet. -/
theorem State.Kept.readRecord (h : s.Kept most) (settled : s.Settled) (loading : s.site.state = .loading) (table : TableId)
    (i : Nat) (bytes : List Byte) : (s.readRecord table i bytes).Kept most := by
  have counted := h.setTransfer (s.transfer.counted bytes)
  unfold State.readRecord
  dsimp only
  split
  · exact counted.failLoad _
  next record read =>
    have ranged := settled.site.setRecord i (Record.inRange_of_ofBytes read)
    have closed : (s.site.setRecord i record).state ≠ .valid ∧ (s.site.setRecord i record).state ≠ .draining := by
      rw [SiteStore.setRecord_state, loading]
      exact ⟨nofun, nofun⟩
    have cycle : s.flow.cycle = none := by
      rw [← Option.not_isSome_iff_eq_none]
      exact fun polling => nomatch loading.symm.trans (settled.cycle polling)
    have written : ({ s.setTransfer (s.transfer.counted bytes) with site := s.site.setRecord i record } : State).Kept most :=
      { counted with flow := h.flow.of_closed rfl cycle closed }
    split
    · exact written.setTransfer _
    · exact (written.setTransfer _).finishTables ranged

theorem State.Kept.recordRead (h : s.Kept most) (settled : s.Settled) (bytes : List Byte) :
    (s.recordRead bytes).Kept most := by
  unfold State.recordRead
  split
  next reading _ =>
    split
    · exact h.readRecord settled (settled.reading reading) _ _ bytes
    · exact h
  · exact h

theorem State.Kept.acceptHeader (h : s.Kept most) (bytes : List Byte) : (s.acceptHeader bytes).Kept most :=
  { h with flow := { canonical := h.flow.canonical, range := h.flow.range, follows := h.flow.follows } }

theorem State.Kept.headerRead (h : s.Kept most) (bytes : List Byte) : (s.headerRead bytes).Kept most := by
  unfold State.headerRead
  split
  · split
    · unfold State.noteLength
      split
      · exact (h.setTransfer _).failLoad _
      · exact h.failLoad _
    · exact h.acceptHeader bytes
  · exact h

theorem State.Kept.siteDump (h : s.Kept most) (address : Nat) : (s.siteDump address).state.Kept most := by
  unfold State.siteDump
  split
  · exact h
  · split
    · exact h
    · split
      · exact h
      · split
        · exact h
        · exact h.setTransfer _

theorem State.Kept.programNext (h : s.Kept most) (offset : Nat) : (s.programNext offset).Kept most := by
  unfold State.programNext
  split <;> exact h.setTransfer _

theorem State.Kept.eraseNext (h : s.Kept most) (offset : Nat) : (s.eraseNext offset).Kept most := by
  unfold State.eraseNext
  split
  · exact h.setTransfer _
  · exact h.programNext 0

theorem State.Kept.busyClear (h : s.Kept most) : s.busyClear.Kept most := by
  unfold State.busyClear
  split
  · split
    · exact h.setTransfer _
    · exact h.setTransfer _
    · exact h
  · exact h.eraseNext _
  · split
    · exact h.endTransfer _ _ _ _
    · exact h.programNext _
  · exact h
  · exact h
  · exact h
  · exact h

theorem State.Kept.flashTimeout (h : s.Kept most) : s.flashTimeout.Kept most := by
  unfold State.flashTimeout
  dsimp only
  split
  · split
    · exact h.failLoad _
    · exact h.endTransfer _ _ _ _
    · exact h
  · exact h

end

end Sys2Proof.Machine
end

section
/-! SUPPORT. What the Host Link's own commands, the resets, and so every command keep of the bounds (R168 to R178). -/

namespace Sys2Proof.Machine

section

variable {k : HostLink} {most : Nat}

/-! ### The transmitter (R170, R171) -/

theorem HostLink.Kept.sent (h : k.Kept most) : k.sent.Kept most := by
  unfold HostLink.sent
  split
  · split
    · exact { h with bounded := { h.bounded with } }
    · exact h
  · exact h

theorem HostLink.Kept.choose (h : k.Kept most) : k.choose.Kept most := by
  unfold HostLink.choose
  split
  next f rest taken =>
    obtain ⟨bounded, fewer⟩ := h.bounded.takeReply taken
    exact { bounded := { bounded with }, parameters := h.parameters, room := fewer.trans h.room }
  · split
    · exact { h with bounded := { h.bounded with } }
    next n rest notices =>
      split
      · exact { h with bounded := { h.bounded with } }
      · have sending : ({ k with sending := some n.frame } : HostLink).Bounded := { h.bounded with }
        exact
          { bounded := sending.entryLeft (notices ▸ List.sublist_cons_self n rest)
            parameters := by rw [HostLink.entryLeft_parameters]; exact h.parameters
            room := by rw [HostLink.entryLeft_replies]; exact h.room }

/-! ### START and the parameters (R171, R174) -/

theorem HostLink.Kept.removeStart (h : k.Kept most) : k.removeStart.Kept most := by
  refine ⟨h.bounded.removeStart, ?_, ?_⟩ <;> unfold HostLink.removeStart <;> split
  · rw [HostLink.entryLeft_parameters]
    exact h.parameters
  · exact h.parameters
  · rw [HostLink.entryLeft_replies]
    exact h.room
  · exact h.room

theorem clampTo_between {least most : Nat} (h : least ≤ most) (value : Nat) :
    least ≤ clampTo least most value ∧ clampTo least most value ≤ most := by
  unfold clampTo
  omega

theorem Parameters.InRange.withValue {p q : Parameters} (h : p.InRange) {number value : Nat}
    (written : p.withValue number value = some q) : q.InRange := by
  unfold Parameters.withValue at written
  split at written
  · obtain rfl := Option.some.inj written
    exact { h with turnPeriod := clampTo_between (by decide) value }
  · obtain rfl := Option.some.inj written
    exact { h with resultHold := clampTo_between (by decide) value }
  · obtain rfl := Option.some.inj written
    exact { h with sampleInterval := clampTo_between (by decide) value }
  · obtain rfl := Option.some.inj written
    exact { h with start := by simp }
  · obtain ⟨source, -, rfl⟩ := Option.map_eq_some_iff.mp written
    exact { h with }
  · obtain ⟨polarity, -, rfl⟩ := Option.map_eq_some_iff.mp written
    exact { h with }
  · cases written

theorem Parameters.defaults_inRange : Parameters.defaults.InRange := by
  constructor <;> decide

theorem HostLink.afterReset_kept (kind : ResetKind) (most : Nat) : (HostLink.afterReset kind).Kept most where
  bounded :=
    { notices := (by decide : 1 ≤ 48), keys := List.nodup_singleton _, marked := nofun, unmarked := fun _ => rfl
      replies := Nat.zero_le _, last := nofun, runs := nofun, hunt := fun _ => ⟨rfl, rfl⟩
      frame := fun away => absurd rfl away, length := nofun, kind := nofun, payload := nofun, check := nofun
      stated := fun away => absurd rfl away }
  parameters := Parameters.defaults_inRange
  room := Nat.zero_le _

end

section

variable {s : State} {most : Nat}

theorem State.Kept.setLink (h : s.Kept most) {more : Nat} {k : HostLink} (link : k.Kept more) :
    ({ s with link := k } : State).Kept more := { h with link := link }

theorem State.Kept.ackStart (h : s.Kept most) : s.ackStart.state.Kept most := by
  unfold State.ackStart
  split
  · have acknowledged : ({ s.link with startPending := false, repeatTimer := false } : HostLink).Kept most :=
      { h.link with bounded := { h.link.bounded with } }
    exact h.setLink acknowledged.removeStart
  · exact h

theorem State.Kept.softReset (h : s.Kept most) : s.softReset.state.Kept most :=
  h.setLink { h.link with bounded := { h.link.bounded with } }

theorem State.Kept.startRepeat (h : s.Kept most) : s.startRepeat.Kept most := by
  unfold State.startRepeat
  split
  · have stopped : ({ s with link := { s.link with repeatTimer := false } } : State).Kept most :=
      h.setLink { h.link with bounded := { h.link.bounded with } }
    exact stopped.offer _
  · exact h

theorem State.Kept.setParam (h : s.Kept most) (number value : Nat) : (s.setParam number value).state.Kept most := by
  unfold State.setParam
  split
  · exact h
  · split
    · exact h
    next written =>
      exact h.setLink
        { bounded := { h.link.bounded with }, parameters := h.link.parameters.withValue written, room := h.link.room }

/-! ### The resets (R23, R24, R172, R177) -/

/-- R23: the power-on values, with a load begun where BOOTLD is high. -/
theorem State.powerOn_kept (s : State) (rate : BitVec 2) (bootld alarm : Bool) (most : Nat) :
    (s.powerOn rate bootld alarm).Kept most := by
  have cleared : ({ State.reset with
      pending := s.pending
      pins := { resetAsserted := false, rate := rate, bootld := bootld }
      egress := .afterPowerOn alarm } : State).Kept most :=
    { link := HostLink.afterReset_kept .powerOn most
      edits := ⟨Nat.zero_le _, List.nodup_nil⟩
      late := ⟨List.nodup_nil, nofun⟩
      queue := ⟨Nat.zero_le _, nofun⟩
      lanes := ⟨rfl, nofun⟩
      flow := ⟨rfl, ⟨fun _ => Channel.cleared_inRange, nofun⟩, nofun⟩ }
  unfold State.powerOn State.bootLoad
  split
  · exact (cleared.moveSite_closed (next := .loading) ⟨nofun, nofun⟩).startLoad 0
  · exact cleared

theorem SiteStore.softReset_valid {site : SiteStore} (h : site.softReset.state = .valid ∨ site.softReset.state = .draining) :
    site.state = .valid ∨ site.state = .draining := by
  cases state : site.state <;> simp [SiteStore.softReset, state] at h ⊢

theorem LanesKept.softReset (s : State) : LanesKept s.softResetLanes where
  canonical := Table.wf_tabulate _ _ _
  passes l r taken := by
    unfold State.softResetLanes at taken
    rw [Table.get_tabulate] at taken
    split at taken <;> cases taken

theorem State.Kept.softResetEffect (h : s.Kept most) : s.softResetEffect.Kept most := by
  unfold State.softResetEffect
  split
  · exact
      { link := HostLink.afterReset_kept .soft most
        edits := h.edits
        late := h.late
        queue := ⟨Nat.zero_le _, nofun⟩
        lanes := .softReset s
        flow := ⟨h.flow.canonical, ⟨h.flow.range.channels, nofun⟩, fun opened =>
          h.flow.follows (SiteStore.softReset_valid opened)⟩ }
  · exact h

theorem State.Kept.assertReset (h : s.Kept most) (rate : BitVec 2) (bootld : Bool) :
    (s.assertReset rate bootld).Kept most := by
  have aborted : s.abortTransfer.Kept most := by
    unfold State.abortTransfer
    split
    · exact h.setTransfer _
    · exact h
  have silent : ({ s.link with sending := none } : HostLink).Kept most := { h.link with bounded := { h.link.bounded with } }
  exact { aborted with link := silent }

/-! ### Reception and judging (R168, R169) -/

theorem State.Kept.sync (h : s.Kept most) (bytes : List Byte) : (s.sync bytes).Kept most := by
  unfold State.sync
  split
  · have bounded := h.link.bounded.receiveAll (0xA5 :: bytes)
    obtain ⟨reception, assembled, gapTimer, received⟩ := s.link.receiveAll_frame (0xA5 :: bytes)
    refine h.setLink ⟨bounded, ?_, ?_⟩ <;> rw [received]
    · exact h.link.parameters
    · exact h.link.room
  · exact h

theorem State.Kept.judgeLate (h : s.Kept most) (late : Option Byte) : (s.judgeLate late).Kept most := by
  unfold State.judgeLate
  split
  · exact h.sync []
  · exact h

theorem State.Settled.hunting (h : s.Settled) : s.hunting.Settled := { h with }

/-- R169: a frame that is judged finds room for a reply, or the busy run at the end grows. -/
theorem State.Kept.judge (h : s.Kept 8) {dealt : State → State} (dealtWith : s.hunting.Kept 6 → (dealt s.hunting).Kept 8) :
    (s.judge dealt).Kept 8 := by
  unfold State.judge
  split
  · have hunted := h.link.bounded.toHunt
    dsimp only
    split
    next full =>
      have grown := hunted.grow (of_decide_eq_true full)
      exact h.setLink ⟨grown, h.link.parameters, grown.replies⟩
    next room =>
      have short : ¬ 7 ≤ s.link.replies.length := fun full => room (decide_eq_true full)
      exact dealtWith (h.setLink ⟨hunted, h.link.parameters, Nat.le_of_lt_succ (Nat.lt_of_not_le short)⟩)
  · exact h

/-- R169: a reply joins a queue that has room for it. -/
theorem State.Kept.append (h : s.Kept 6) (f : Frame) : ({ s with link := s.link.append f } : State).Kept 8 := by
  have bounded := h.link.bounded.append h.link.room f
  exact h.setLink ⟨bounded, h.link.parameters, bounded.replies⟩

theorem State.Kept.answerError (h : s.Kept 8) (code : ReplyCode) : (s.answerError code).Kept 8 :=
  h.judge fun hunted => hunted.append _

/-- A request keeps the bounds as its block does, which leaves the room its reply takes. -/
theorem State.Kept.take (h : s.Kept 8) (settled : s.Settled) (kind : RequestKind) (payload : List Byte)
    {block : State → Answer} (dealt : ∀ u : State, u.Settled → u.Kept 6 → (block u).state.Kept 6) :
    (s.take kind payload block).Kept 8 := by
  unfold State.take
  split
  · exact h.answerError .badLength
  · refine h.judge fun hunted => ?_
    split
    · exact hunted.append _
    · split
      · exact hunted.append _
      · exact (dealt s.hunting settled.hunting hunted).append _

/-- A request whose block changes nothing. -/
theorem State.Kept.takeReport (h : s.Kept 8) (settled : s.Settled) (kind : RequestKind) (payload : List Byte)
    {block : State → Answer} (same : ∀ u : State, (block u).state = u) : (s.take kind payload block).Kept 8 :=
  h.take settled kind payload fun u _ hu => (same u).symm ▸ hu

theorem State.Kept.event (h : s.Kept most) {effect : State → State} (dealt : (effect s).Kept most) :
    (s.event effect).Kept most := by
  unfold State.event
  split
  · exact dealt
  · exact h

/-! ### Every command -/

theorem State.Kept.exec (h : s.Kept 8) (settled : s.Settled) (c : Instr) : ∃ t, exec c s = .next t ∧ t.Kept 8 := by
  have site := settled.site
  cases c with
  | powerOnReset rate bootld alarm => exact ⟨_, rfl, s.powerOn_kept rate bootld alarm 8⟩
  | ackStart payload => exact ⟨_, rfl, h.take settled _ _ fun _ _ hu => hu.ackStart⟩
  | status payload => exact ⟨_, rfl, h.takeReport settled _ _ fun _ => rfl⟩
  | softReset payload => exact ⟨_, rfl, h.take settled _ _ fun _ _ hu => hu.softReset⟩
  | softResetEffect => exact ⟨_, rfl, h.event h.softResetEffect⟩
  | setParam payload => exact ⟨_, rfl, h.take settled _ _ fun _ _ hu => hu.setParam _ _⟩
  | getParam payload => exact ⟨_, rfl, h.takeReport settled _ _ fun u => u.getParam_state _⟩
  | siteOpen payload => exact ⟨_, rfl, h.take settled _ _ fun _ _ hu => hu.siteOpen⟩
  | siteClose payload => exact ⟨_, rfl, h.take settled _ _ fun _ su hu => hu.siteClose su.site⟩
  | tableWrite payload => exact ⟨_, rfl, h.take settled _ _ fun _ su hu => hu.tableWrite su _ _ _⟩
  | tableRead payload => exact ⟨_, rfl, h.takeReport settled _ _ fun u => u.tableRead_state _ _ _⟩
  | siteLoad payload => exact ⟨_, rfl, h.take settled _ _ fun _ _ hu => hu.siteLoad _⟩
  | siteDump payload => exact ⟨_, rfl, h.take settled _ _ fun _ _ hu => hu.siteDump _⟩
  | condition payload => exact ⟨_, rfl, h.take settled _ _ fun _ _ hu => hu.condition _ _⟩
  | conditionRead payload => exact ⟨_, rfl, h.takeReport settled _ _ fun u => u.conditionRead_state _⟩
  | turnNow payload => exact ⟨_, rfl, h.take settled _ _ fun _ _ hu => hu.turnNow⟩
  | setClock payload => exact ⟨_, rfl, h.take settled _ _ fun _ su hu => hu.setClock su.site _ _⟩
  | route payload => exact ⟨_, rfl, h.take settled _ _ fun _ _ hu => hu.route rfl⟩
  | cancel payload => exact ⟨_, rfl, h.take settled _ _ fun _ _ hu => hu.cancel _⟩
  | collect payload => exact ⟨_, rfl, h.take settled _ _ fun _ _ hu => hu.collect _⟩
  | screenState payload => exact ⟨_, rfl, h.takeReport settled _ _ fun u => u.screenStateReply_state _⟩
  | flowRead payload => exact ⟨_, rfl, h.takeReport settled _ _ fun u => u.flowRead_state _⟩
  | egressEnter payload => exact ⟨_, rfl, h.take settled _ _ fun _ _ hu => hu.egressEnter⟩
  | egressResume payload => exact ⟨_, rfl, h.take settled _ _ fun _ _ hu => hu.egressResume⟩
  | alarmPinChange => exact ⟨_, rfl, h.event (h.setEgress _)⟩
  | alarmAsserted => exact ⟨_, rfl, h.event h.alarmAsserted⟩
  | alarmClear => exact ⟨_, rfl, h.event h.alarmClear⟩
  | badCheck bytes =>
    refine ⟨_, rfl, ?_⟩
    split
    · exact h
    · exact h.answerError .badCheck
  | unknownKind kind =>
    refine ⟨_, rfl, ?_⟩
    split
    · exact h
    · exact h.answerError .unknownKind
  | badLength length =>
    refine ⟨_, rfl, ?_⟩
    split
    · exact h.answerError .badLength
    · exact h
  | frameTimeout late =>
    refine ⟨_, rfl, ?_⟩
    split
    · exact (h.answerError .frameTimeout).judgeLate late
    · exact h
  | linkBusy =>
    refine ⟨_, rfl, ?_⟩
    split
    · exact h.judge fun hunted => hunted.mono (by decide)
    · exact h
  | frameBoundary => exact ⟨_, rfl, h.event (h.setLink h.link.sent.choose)⟩
  | startRepeatTimerExpiry => exact ⟨_, rfl, h.event h.startRepeat⟩
  | grant => exact ⟨_, rfl, h.event (h.grant site)⟩
  | recordComplete lane => exact ⟨_, rfl, h.event (h.recordComplete lane.val)⟩
  | slotGrant => exact ⟨_, rfl, h.event h.slotGrant⟩
  | holdTimerExpiry slot => exact ⟨_, rfl, h.event (h.holdExpiry slot.val)⟩
  | drainEnd => exact ⟨_, rfl, h.event h.drainEnd⟩
  | turnTimerExpiry => exact ⟨_, rfl, h.event h.turnTimerExpiry⟩
  | applyStep => exact ⟨_, rfl, h.event h.applyStep⟩
  | tick =>
    have late : s.schedule.ticked.late = s.schedule.late := by
      unfold ScheduleUnit.ticked
      split <;> rfl
    exact ⟨_, rfl, h.event { h with late := show LateKept s.schedule.ticked.late from late ▸ h.late }⟩
  | minuteBoundary => exact ⟨_, rfl, h.event (h.minuteBoundary site)⟩
  | sampleTimerExpiry => exact ⟨_, rfl, h.event h.sampleTimerExpiry⟩
  | pollSent => exact ⟨_, rfl, h.event h.pollSent⟩
  | counterReply b0 b1 b2 b3 b4 =>
    exact ⟨_, rfl, h.event (h.judgeSample settled fun _ _ counted => replySample_le counted)⟩
  | replyTimeout => exact ⟨_, rfl, h.event (h.judgeSample settled nofun)⟩
  | busyClear => exact ⟨_, rfl, h.event h.busyClear⟩
  | flashTimeout => exact ⟨_, rfl, h.event h.flashTimeout⟩
  | headerRead bytes => exact ⟨_, rfl, h.event (h.headerRead bytes)⟩
  | recordRead bytes => exact ⟨_, rfl, h.event (h.recordRead settled bytes)⟩
  | resetAsserted rate bootld => exact ⟨_, rfl, h.assertReset rate bootld⟩
  | sync bytes => exact ⟨_, rfl, h.sync bytes⟩

end

end Sys2Proof.Machine
end

section

open Sys2Proof Sys2Proof.Machine

/-- Settles O56: every command keeps the bounds of each block (`State.Kept`), as `State.Kept.exec` shows for the commands
one by one, given settings in range, cycles in VALID only, and tables that are read in LOADING only (`State.Settled`). -/
theorem queuesAndValuesStayBounded : Obligations.QueuesAndValuesStayBounded := by
  intro s t canonical ranges consistent lists link parameters flow counts next
  have kept := State.kept canonical lists link parameters flow counts
  have settled := State.settled canonical ranges consistent
  have after : t.Kept 8 := by
    unfold step at next
    split at next
    · cases next
      exact kept
    next c rest _ =>
      have taken : ({ s with pending := rest } : State).Kept 8 := { kept with }
      obtain ⟨t', run, kept'⟩ := taken.exec { settled with } c
      rw [run] at next
      cases next
      exact kept'
  exact ⟨after.lists, after.link.bounded, after.link.parameters, after.flow.range, after.counts⟩

end

section
/-! SUPPORT. The pending list with an edit placed in it (R104), and the targets that CONDITION and CONDITION READ name
(R103, R179). -/

namespace Sys2Proof.Machine

/-! ### The pending list (R104) -/

/-- R104: the list with an edit in place of the one for its target, or at its end. -/
def putEdit (edit : Edit) (edits : List Edit) : List Edit :=
  if edits.any fun e => e.target = edit.target then edits.map fun e => if e.target = edit.target then edit else e
  else edits ++ [edit]

section

variable {edit : Edit} {edits : List Edit}

/-- R104: a target that stands in the list takes no room. -/
theorem placeEdit_of_listed (h : ∃ e ∈ edits, e.target = edit.target) :
    placeEdit edit edits = some (putEdit edit edits) := by
  have listed : (edits.any fun e => e.target = edit.target) = true := by simpa using h
  rw [placeEdit, if_pos listed, putEdit, if_pos listed]

theorem placeEdit_of_room (h : edits.length < 64) : placeEdit edit edits = some (putEdit edit edits) := by
  by_cases listed : ∃ e ∈ edits, e.target = edit.target
  · exact placeEdit_of_listed listed
  · have absent : ¬ (edits.any fun e => e.target = edit.target) = true := by simpa using listed
    rw [placeEdit, if_neg absent, if_pos h, putEdit, if_neg absent]

theorem placeEdit_of_full (other : ∀ e ∈ edits, e.target ≠ edit.target) (full : 64 ≤ edits.length) :
    placeEdit edit edits = none := by
  have absent : ¬ (edits.any fun e => e.target = edit.target) = true := by simpa using other
  rw [placeEdit, if_neg absent, if_neg (Nat.not_lt.mpr full)]

theorem placeEdit_eq_some {placed : List Edit} (h : placeEdit edit edits = some placed) : placed = putEdit edit edits := by
  unfold placeEdit at h
  unfold putEdit
  split at h
  next listed =>
    rw [if_pos listed]
    cases h
    rfl
  next absent =>
    rw [if_neg absent]
    split at h
    · cases h
      rfl
    · cases h

theorem putEdit_of_absent (h : ∀ e ∈ edits, e.target ≠ edit.target) : putEdit edit edits = edits ++ [edit] :=
  if_neg (by simpa using h)

theorem putEdit_of_listed {before after : List Edit} {e : Edit} (same : e.target = edit.target)
    (others : ∀ x ∈ before ++ after, x.target ≠ edit.target) :
    putEdit edit (before ++ e :: after) = before ++ edit :: after := by
  have keeps (l : List Edit) (h : ∀ x ∈ l, x.target ≠ edit.target) :
      (l.map fun x => if x.target = edit.target then edit else x) = l :=
    List.map_congr_left (fun x hx => if_neg (h x hx)) |>.trans l.map_id
  rw [putEdit, if_pos (by simp [same]), List.map_append, List.map_cons, if_pos same,
    keeps before fun x hx => others x (List.mem_append_left _ hx),
    keeps after fun x hx => others x (List.mem_append_right _ hx)]

/-- R104: the list holds the edit, and what it held for other targets. -/
theorem mem_putEdit (x : Edit) : x ∈ putEdit edit edits ↔ x = edit ∨ (x ∈ edits ∧ x.target ≠ edit.target) := by
  unfold putEdit
  split
  next listed =>
    simp only [List.any_eq_true, decide_eq_true_eq] at listed
    obtain ⟨e, he, same⟩ := listed
    rw [List.mem_map]
    constructor
    · rintro ⟨y, hy, rfl⟩
      split
      · exact .inl rfl
      next other => exact .inr ⟨hy, other⟩
    · rintro (rfl | ⟨hx, other⟩)
      · exact ⟨e, he, if_pos same⟩
      · exact ⟨x, hx, if_neg other⟩
  next absent =>
    simp only [List.any_eq_true, decide_eq_true_eq, not_exists, not_and] at absent
    rw [List.mem_append, List.mem_singleton]
    exact ⟨fun h => h.symm.imp_right fun hx => ⟨hx, absent x hx⟩, fun h => (h.imp_right And.left).symm⟩

theorem putEdit_length_le : (putEdit edit edits).length ≤ edits.length + 1 := by
  unfold putEdit
  split <;> simp

/-- A target that stands in the list still stands in it. -/
theorem putEdit_listed {t : Target} (h : ∃ e ∈ edits, e.target = t) : ∃ e ∈ putEdit edit edits, e.target = t := by
  obtain ⟨e, he, rfl⟩ := h
  by_cases same : e.target = edit.target
  · exact ⟨edit, (mem_putEdit _).mpr (.inl rfl), same.symm⟩
  · exact ⟨e, (mem_putEdit _).mpr (.inr ⟨he, same⟩), rfl⟩

/-- R104: no two entries of one target. -/
theorem putEdit_nodup (h : (edits.map Edit.target).Nodup) : ((putEdit edit edits).map Edit.target).Nodup := by
  unfold putEdit
  split
  · have kept : (Edit.target ∘ fun e => if e.target = edit.target then edit else e) = Edit.target := by
      funext e
      rw [Function.comp_apply]
      split
      next same => exact same.symm
      next => rfl
    rwa [List.map_map, kept]
  next absent =>
    rw [List.map_append]
    exact h.append (List.nodup_singleton _) (by simpa using absent)

end

/-! ### The target of a payload (R103, R179) -/

/-- R103 checks 3 to 5 on a kind code and an index: the code with which they are refused, none for a target of the site. -/
def State.addressRefusal (s : State) (kind index : Nat) : Option ReplyCode :=
  match TargetKind.ofCode kind with
  | none => some .badTarget
  | some k => s.targetRefusal { kind := k, index := index }

section

variable {s : State} {kind index value : Nat}

theorem Target.ofPayload_eq (hk : kind < 256) (hi : index < 65536) (rest : List Byte) :
    Target.ofPayload (le8 kind ++ le16 index ++ rest) =
      (TargetKind.ofCode kind).map fun k => { kind := k, index := index } := by
  have word : wordAt (le8 kind ++ (le16 index ++ rest)) 1 = index := wordAt_le16 hi rest
  rw [Target.ofPayload, List.append_assoc, byteAt_le8 hk, word]

theorem TargetKind.ofCode_of_le (h : 3 ≤ kind) : TargetKind.ofCode kind = none := by
  obtain ⟨n, rfl⟩ := Nat.exists_eq_add_of_le' h
  rfl

theorem State.addressRefusal_badTarget (h : 3 ≤ kind) : s.addressRefusal kind index = some .badTarget := by
  rw [State.addressRefusal, TargetKind.ofCode_of_le h]

theorem State.addressRefusal_edge (hk : kind ≤ 1) (above : s.site.header.edgeCount ≤ index) :
    s.addressRefusal kind index = some .badIndex := by
  obtain rfl | rfl : kind = 0 ∨ kind = 1 := by omega
  · exact if_pos above
  · exact if_pos above

theorem State.addressRefusal_gate (above : 64 ≤ index) : s.addressRefusal 2 index = some .badIndex := if_pos above

/-- The edge is a moving one (R3, R4). -/
def State.moving (s : State) (index : Nat) : Prop :=
  (s.edge index).cls = .escalator ∨ (s.edge index).cls = .travelator

theorem State.addressRefusal_still (within : index < s.site.header.edgeCount) (still : ¬ s.moving index) :
    s.addressRefusal 1 index = some .badTarget := by
  unfold State.moving at still
  change ite _ _ _ = _
  rw [if_neg (Nat.not_le.mpr within), if_neg (by simpa using still)]

/-- R103: this kind code and index name this target of the site. -/
def State.Names (s : State) (kind index : Nat) (t : Target) : Prop :=
  (t.kind = .edge ∧ kind = 0 ∧ index < s.site.header.edgeCount) ∨
    (t.kind = .motion ∧ kind = 1 ∧ index < s.site.header.edgeCount ∧ s.moving index) ∨
    (t.kind = .gate ∧ kind = 2 ∧ index < 64)

theorem State.Names.ofCode {t : Target} (h : s.Names kind index t) : TargetKind.ofCode kind = some t.kind := by
  rcases h with ⟨eq, rfl, -⟩ | ⟨eq, rfl, -⟩ | ⟨eq, rfl, -⟩ <;> rw [eq] <;> rfl

theorem State.Names.targetRefusal {t : Target} (h : s.Names kind t.index t) : s.targetRefusal t = none := by
  unfold State.targetRefusal
  rcases h with ⟨eq, -, within⟩ | ⟨eq, -, within, moving⟩ | ⟨eq, -, within⟩
  · simp only [eq, if_neg (Nat.not_le.mpr within)]
  · have moves : ((s.edge t.index).cls = .escalator || (s.edge t.index).cls = .travelator) = true := by
      simpa [State.moving] using moving
    simp only [eq, if_neg (Nat.not_le.mpr within), if_pos moves]
  · simp only [eq, Config.gates, if_neg (Nat.not_le.mpr within)]

theorem State.Names.target {t : Target} (h : s.Names kind t.index t) :
    ((TargetKind.ofCode kind).map fun k => ({ kind := k, index := t.index } : Target)) = some t := by
  rw [h.ofCode]
  rfl

/-! ### The value (R11, R103) -/

theorem Setting.ofCode_closure {k : TargetKind} (hk : k ≠ .motion) (h : 2 ≤ value) : Setting.ofCode k value = none := by
  obtain ⟨n, rfl⟩ := Nat.exists_eq_add_of_le' h
  cases k with
  | motion => exact absurd rfl hk
  | edge => rfl
  | gate => rfl

theorem Setting.ofCode_motion (h : 3 ≤ value) : Setting.ofCode .motion value = none := by
  obtain ⟨n, rfl⟩ := Nat.exists_eq_add_of_le' h
  rfl

/-- The code of a value that belongs to a kind stands for that value. -/
theorem Setting.ofCode_code {v : Setting} {k : TargetKind} (h : v.belongsTo k = true) :
    Setting.ofCode k v.code = some v := by
  cases v with
  | closure c =>
    cases k with
    | motion => cases h
    | edge => cases c <;> rfl
    | gate => cases c <;> rfl
  | motion m =>
    cases k with
    | motion => cases m <;> rfl
    | edge => cases h
    | gate => cases h

end

end Sys2Proof.Machine
end

section
/-! SUPPORT. CONDITION: its checks in their order, and the edit it places (R103, R104). -/

namespace Sys2Proof.Machine

section

variable {s : State} {kind index value : Nat}

theorem exec_condition_notStarted (h : s.Open) (startPending : s.link.startPending = true) {payload : List Byte}
    (length : payload.length = 4) : exec (.condition payload) s = .next (s.answers 0x8C [9]) := by
  have allowed : RequestKind.condition.lengthAllowed payload = true := decide_eq_true length
  change Host.Outcome.next (s.take _ _ _) = _
  rw [State.take_of_notStarted h allowed startPending rfl]
  exact congrArg _ (s.refuse_replied .condition .notStarted (by decide))

theorem exec_condition (h : s.Started) (hk : kind < 256) (hi : index < 65536) (hv : value < 256) :
    exec (.condition (le8 kind ++ le16 index ++ le8 value)) s =
      .next ((s.hunting.condition ((TargetKind.ofCode kind).map fun k => { kind := k, index := index }) value).replied
        .condition) := by
  have last : byteAt (le8 kind ++ le16 index ++ le8 value) 3 = value := byteAt_le8 hv []
  change Host.Outcome.next (s.take _ _ _) = _
  rw [State.take_of_started h rfl, Target.ofPayload_eq hk hi, last]

theorem State.condition_unavailable (closed : s.site.state ≠ .valid) (target : Option Target) :
    s.condition target value = refuse s .siteUnavailable := if_pos closed

/-- R103 checks 3 to 5. -/
theorem State.condition_of_addressRefusal {code : ReplyCode} (valid : s.site.state = .valid)
    (h : s.addressRefusal kind index = some code) :
    s.condition ((TargetKind.ofCode kind).map fun k => { kind := k, index := index }) value = refuse s code := by
  unfold State.addressRefusal at h
  cases known : TargetKind.ofCode kind with
  | none =>
    rw [known] at h
    cases h
    exact if_neg (not_not.mpr valid)
  | some k =>
    simp only [known] at h
    simp only [State.condition, valid, ne_eq, not_true, if_false, Option.map_some, h]

/-! R103 checks 6 and 7, and the edit placed. -/

theorem State.condition_badValue {t : Target} (valid : s.site.state = .valid) (good : s.targetRefusal t = none)
    (h : Setting.ofCode t.kind value = none) : s.condition (some t) value = refuse s .badValue := by
  simp only [State.condition, valid, ne_eq, not_true, if_false, good, h]

theorem State.condition_listFull {t : Target} {v : Setting} (valid : s.site.state = .valid)
    (good : s.targetRefusal t = none) (known : Setting.ofCode t.kind value = some v)
    (h : placeEdit { target := t, value := v, source := .host } s.conditions.edits = none) :
    s.condition (some t) value = refuse s .listFull := by
  simp only [State.condition, valid, ne_eq, not_true, if_false, good, known, h]

theorem State.condition_placed {t : Target} {v : Setting} {edits : List Edit} (valid : s.site.state = .valid)
    (good : s.targetRefusal t = none) (known : Setting.ofCode t.kind value = some v)
    (h : placeEdit { target := t, value := v, source := .host } s.conditions.edits = some edits) :
    s.condition (some t) value = { code := .ok, data := le8 edits.length, state := s.setEdits edits } := by
  simp only [State.condition, valid, ne_eq, not_true, if_false, good, known, h]

end

end Sys2Proof.Machine
end

section

open Sys2Proof Sys2Proof.Machine

/-- Settles O30, by the checks in their order; the edit placed is `putEdit`. -/
theorem conditionIsCheckedAndPlaced : Obligations.ConditionIsCheckedAndPlaced := by
  refine ⟨fun s kind index value opened startPending hk hi hv => exec_condition_notStarted opened startPending rfl,
    fun s kind index value started hk hi hv => ?_⟩
  intro c moving
  have taken : exec c s = .next ((s.hunting.condition _ value).replied .condition) := exec_condition started hk hi hv
  have refused {code : ReplyCode} (bad : code ≠ .ok)
      (h : s.hunting.condition ((TargetKind.ofCode kind).map fun k => { kind := k, index := index }) value =
        refuse s.hunting code) : exec c s = .next (s.answers 0x8C (le8 code.code)) := by
    rw [taken, h]
    exact congrArg _ (s.refuse_replied .condition code bad)
  refine ⟨fun closed => refused (code := .siteUnavailable) nofun
    (State.condition_unavailable (s := s.hunting) closed _), fun valid => ?_⟩
  have unaddressed {code : ReplyCode} (bad : code ≠ .ok) (h : s.addressRefusal kind index = some code) :
      exec c s = .next (s.answers 0x8C (le8 code.code)) :=
    refused bad (State.condition_of_addressRefusal (s := s.hunting) valid h)
  refine ⟨fun unknown => unaddressed (code := .badTarget) nofun (State.addressRefusal_badTarget unknown),
    fun edge above => unaddressed (code := .badIndex) nofun (State.addressRefusal_edge edge above),
    fun gate above => unaddressed (code := .badIndex) nofun (gate ▸ State.addressRefusal_gate above),
    fun motion within still => unaddressed (code := .badTarget) nofun (motion ▸ State.addressRefusal_still within still),
    ?_⟩
  rintro t rfl names
  replace names : s.Names kind t.index t := names
  have good : s.hunting.targetRefusal t = none := names.targetRefusal
  rw [names.target] at taken refused
  refine ⟨fun closure above => refused (code := .badValue) nofun
      (State.condition_badValue valid good (Setting.ofCode_closure closure above)),
    fun motion above => refused (code := .badValue) nofun
      (State.condition_badValue valid good (motion ▸ Setting.ofCode_motion above)), ?_⟩
  rintro v rfl belongs edit placed
  have known : Setting.ofCode t.kind v.code = some v := Setting.ofCode_code belongs
  have accepted {edits : List Edit} (h : placeEdit edit s.conditions.edits = some edits) :
      exec c s = .next (placed edits) := by
    rw [taken, State.condition_placed (s := s.hunting) valid good known h]
    rfl
  refine ⟨fun absent => ⟨fun full => refused (code := .listFull) nofun
      (State.condition_listFull valid good known (placeEdit_of_full absent full)), fun room => accepted ?_⟩, ?_⟩
  · rw [placeEdit_of_room room, putEdit_of_absent absent]
  · intro before e after list same others
    refine accepted ?_
    rw [list, placeEdit_of_listed ⟨e, by simp, same⟩, putEdit_of_listed same others]

end

section
/-! SUPPORT. CONDITION READ: what it reports of a target (R106, R179). -/

namespace Sys2Proof.Machine

section

variable {s : State} {kind index : Nat}

theorem exec_conditionRead (h : s.Started) (hk : kind < 256) (hi : index < 65536) :
    exec (.conditionRead (le8 kind ++ le16 index)) s =
      .next ((s.hunting.conditionRead ((TargetKind.ofCode kind).map fun k => { kind := k, index := index })).replied
        .conditionRead) := by
  have target := Target.ofPayload_eq hk hi []
  rw [List.append_nil] at target
  change Host.Outcome.next (s.take _ _ _) = _
  rw [State.take_of_started h rfl, target]

theorem SiteState.turnTimerRuns_iff (state : SiteState) :
    state.turnTimerRuns = true ↔ state = .valid ∨ state = .draining := by
  cases state <;> simp [SiteState.turnTimerRuns]

theorem SiteState.turnTimerRuns_eq_false {state : SiteState} (notValid : state ≠ .valid) (notDraining : state ≠ .draining) :
    state.turnTimerRuns = false := by
  rw [← Bool.not_eq_true, SiteState.turnTimerRuns_iff]
  exact not_or.mpr ⟨notValid, notDraining⟩

theorem State.conditionRead_unavailable (closed : s.site.state.turnTimerRuns = false) (target : Option Target) :
    s.conditionRead target = refuse s .siteUnavailable := by
  simp only [State.conditionRead, closed, Bool.not_false, if_true]

theorem State.conditionRead_of_addressRefusal {code : ReplyCode} (live : s.site.state.turnTimerRuns = true)
    (h : s.addressRefusal kind index = some code) :
    s.conditionRead ((TargetKind.ofCode kind).map fun k => { kind := k, index := index }) = refuse s code := by
  unfold State.addressRefusal at h
  cases known : TargetKind.ofCode kind with
  | none =>
    rw [known] at h
    cases h
    simp only [State.conditionRead, live, Bool.not_true, Bool.false_eq_true, if_false, Option.map_none]
  | some k =>
    simp only [known] at h
    simp only [State.conditionRead, live, Bool.not_true, Bool.false_eq_true, if_false, Option.map_some, h]

theorem State.conditionRead_of_target {t : Target} (live : s.site.state.turnTimerRuns = true)
    (good : s.targetRefusal t = none) :
    s.conditionRead (some t) = { code := .ok, data := s.conditionReport t, state := s } := by
  simp only [State.conditionRead, live, Bool.not_true, Bool.false_eq_true, if_false, good]

/-! ### The report (R106) -/

/-- R106: what the report says of the pending list: the value, the source with its entry, and the position of the target's
edit, each FFh where there is none. -/
def State.pendingReport (s : State) (t : Target) : List Byte :=
  let held := s.conditions.edits.find? fun e => e.target = t
  let place := s.conditions.edits.findIdx? fun e => e.target = t
  opt8 (held.map fun e => e.value.code) ++ opt8 (held.map fun e => e.source.code) ++
    opt8 (held.bind fun e => e.source.entry) ++ opt8 (place.map (· + 1))

theorem State.conditionReport_eq (t : Target) : s.conditionReport t =
    opt8 (s.liveCode t) ++ opt8 (s.defaultCode t) ++ s.pendingReport t ++ le16 s.conditions.epoch.toNat ++
      le8 s.conditions.turn.code := by
  simp only [State.conditionReport, State.pendingReport, List.append_assoc]

theorem State.pendingReport_absent {t : Target} (h : ∀ e ∈ s.conditions.edits, e.target ≠ t) :
    s.pendingReport t = [0xFF, 0xFF, 0xFF, 0xFF] := by
  have held : (s.conditions.edits.find? fun e => e.target = t) = none := by simpa using h
  have place : (s.conditions.edits.findIdx? fun e => e.target = t) = none := by simpa using h
  simp only [State.pendingReport, held, place]
  rfl

theorem State.pendingReport_listed {t : Target} {before after : List Edit} {e : Edit}
    (list : s.conditions.edits = before ++ e :: after) (same : e.target = t) (others : ∀ x ∈ before, x.target ≠ t) :
    s.pendingReport t = le8 e.value.code ++
      (match e.source with
        | .host => [0, 0xFF]
        | .schedule i => [1] ++ le8 i) ++ le8 (before.length + 1) := by
  have held : (s.conditions.edits.find? fun e => e.target = t) = some e := by
    have absent : (before.find? fun x => decide (x.target = t)) = none := by simpa using others
    rw [list, List.find?_append, absent, List.find?_cons]
    simp [same]
  have place : (s.conditions.edits.findIdx? fun e => e.target = t) = some before.length := by
    have absent : (before.findIdx? fun x => decide (x.target = t)) = none := by simpa using others
    rw [list, List.findIdx?_append, absent, List.findIdx?_cons]
    simp [same]
  simp only [State.pendingReport, held, place, Option.map_some, Option.bind_some]
  cases e.source <;> rfl

/-- R4, R106: the default of a moving edge is the motion mode of its direction mode's code. -/
theorem State.defaultCode_motion {t : Target} {m : Motion} (kind : t.kind = .motion)
    (h : (s.edge t.index).direction.code = m.code) : s.defaultCode t = some m.code := by
  simp only [State.defaultCode, kind]
  cases direction : (s.edge t.index).direction <;> rw [direction] at h <;> cases m <;> cases h <;> rfl

end

end Sys2Proof.Machine
end

section

open Sys2Proof Sys2Proof.Machine

/-- Settles O31: the report is `State.conditionReport`, read off by the kind of the target and by the pending list. -/
theorem conditionReadReportsTheTarget : Obligations.ConditionReadReportsTheTarget := by
  intro s kind index started hk hi c moving
  have taken : exec c s = .next ((s.hunting.conditionRead _).replied .conditionRead) := exec_conditionRead started hk hi
  refine ⟨fun notValid notDraining => ?_, fun available => ?_⟩
  · have closed : s.hunting.site.state.turnTimerRuns = false := SiteState.turnTimerRuns_eq_false notValid notDraining
    rw [taken, State.conditionRead_unavailable closed]
    exact congrArg _ (s.refuse_replied .conditionRead .siteUnavailable (by decide))
  have live : s.hunting.site.state.turnTimerRuns = true := (SiteState.turnTimerRuns_iff _).mpr available
  have refused {code : ReplyCode} (bad : code ≠ .ok) (h : s.addressRefusal kind index = some code) :
      exec c s = .next (s.answers 0x8D (le8 code.code)) := by
    rw [taken, State.conditionRead_of_addressRefusal live h]
    exact congrArg _ (s.refuse_replied .conditionRead code bad)
  refine ⟨fun unknown => refused (code := .badTarget) nofun (State.addressRefusal_badTarget unknown),
    fun edge above => refused (code := .badIndex) nofun (State.addressRefusal_edge edge above),
    fun gate above => refused (code := .badIndex) nofun (gate ▸ State.addressRefusal_gate above),
    fun motion within still => refused (code := .badTarget) nofun (motion ▸ State.addressRefusal_still within still), ?_⟩
  rintro t rfl names
  replace names : s.Names kind t.index t := names
  refine ⟨opt8 (s.liveCode t), opt8 (s.defaultCode t), s.pendingReport t, ?_, fun edge => ?_, fun gate => ?_,
    fun motion => ⟨fun m held => ?_, fun m mode => ?_⟩, State.pendingReport_absent,
    fun before e after list same others => State.pendingReport_listed list same others⟩
  · rw [names.target] at taken
    rw [taken, State.conditionRead_of_target live names.targetRefusal]
    change _ = Host.Outcome.next (s.answers 0x8D (0 :: (_ ++ le8 s.conditions.turn.code)))
    rw [← State.conditionReport_eq]
    rfl
  · simp only [State.liveCode, State.defaultCode, edge, Edge.defaultClosure]
    exact ⟨rfl, by split <;> rfl⟩
  · simp only [State.liveCode, State.defaultCode, gate]
    exact ⟨rfl, rfl⟩
  · simp only [State.liveCode, motion, held]
    rfl
  · rw [State.defaultCode_motion motion mode]
    rfl

end

section
/-! SUPPORT. What begins a turn (R107 to R109), and that a turn and the receiver's return to HUNT do not meet. -/

namespace Sys2Proof.Machine

section

variable {s : State} {cause : TurnCause}

/-! ### Beginning a turn (R107) -/

theorem State.somethingToApply_iff (s : State) : s.somethingToApply = true ↔ s.HasWork := by
  simp [State.somethingToApply, State.HasWork, Config.channels]

theorem State.beginTurn_searching (h : s.Searching) :
    s.beginTurn cause = { s with conditions := { s.conditions with turn := .waiting cause } } :=
  if_pos (s.anySearching_iff.mpr h)

theorem State.beginTurn_applies (h : ¬ s.Searching) : s.beginTurn cause = s.applyTurn cause :=
  if_neg (mt s.anySearching_iff.mp h)

theorem State.askTurn_refused (h : s.conditions.turn ≠ .idle ∨ ¬ s.HasWork) : s.askTurn cause = s := by
  rw [← s.somethingToApply_iff] at h
  exact if_neg (by simpa [not_and_or, imp_iff_not_or] using h)

theorem State.askTurn_begins (idle : s.conditions.turn = .idle) (work : s.HasWork) :
    s.askTurn cause = s.beginTurn cause :=
  if_pos (by simpa [idle] using s.somethingToApply_iff.mpr work)

/-! ### A turn (R111, R112) -/

/-- R111, R112: the turn applied and told, before the LATE entries are offered again. -/
def State.turned (s : State) (cause : TurnCause) : State :=
  { s.applied with
    conditions := { s.applied.conditions with turn := .idle }
    link := s.link.offer (.turnDone (s.conditions.epoch + 1) s.conditions.edits.length s.levelChanges cause) }

theorem State.applyTurn_eq (s : State) (cause : TurnCause) :
    s.applyTurn cause = (s.turned cause).offerEntries s.schedule.late := rfl

theorem State.offerEntries_cons (s : State) (i : Nat) (rest : List Nat) :
    s.offerEntries (i :: rest) = (s.offerEntry i).offerEntries rest := rfl

theorem State.offerEntry_hunting (s : State) (i : Nat) : s.hunting.offerEntry i = (s.offerEntry i).hunting := by
  have placed : s.hunting.offerPlaced i = s.offerPlaced i := rfl
  unfold State.offerEntry
  rw [placed]
  cases s.offerPlaced i with
  | some edits => rfl
  | none =>
    unfold State.markLate
    by_cases late : i ∈ s.schedule.late
    · rw [if_pos late, if_pos (by exact late)]
    · rw [if_neg late, if_neg (by exact late)]
      exact congrArg (fun k => ({ s.setLate (s.schedule.late ++ [i]) with link := k } : State)) (s.link.toHunt_offer _)

theorem State.offerEntries_hunting (s : State) (entries : List Nat) :
    s.hunting.offerEntries entries = (s.offerEntries entries).hunting := by
  induction entries generalizing s with
  | nil => rfl
  | cons i rest ih => rw [State.offerEntries_cons, State.offerEntry_hunting, ih, State.offerEntries_cons]

theorem State.turned_hunting (s : State) (cause : TurnCause) : s.hunting.turned cause = (s.turned cause).hunting :=
  congrArg (fun k => ({ s.turned cause with link := k } : State)) (s.link.toHunt_offer _)

theorem State.applyTurn_hunting (s : State) (cause : TurnCause) :
    s.hunting.applyTurn cause = (s.applyTurn cause).hunting := by
  rw [State.applyTurn_eq, State.turned_hunting, State.offerEntries_hunting]
  rfl

/-! ### TURN NOW and the turn timer (R108, R109) -/

theorem exec_turnNow (h : s.Started) : exec (.turnNow []) s = .next (s.hunting.turnNow.replied .turnNow) := by
  change Host.Outcome.next (s.take _ _ _) = _
  rw [State.take_of_started h rfl]

theorem State.turnNow_unavailable (h : s.site.state.turnTimerRuns = false) : s.turnNow = refuse s .siteUnavailable := by
  simp only [State.turnNow, h, Bool.not_false, if_true]

theorem State.turnNow_already (live : s.site.state.turnTimerRuns = true) (h : s.conditions.turn = .waiting cause) :
    s.turnNow = refuse s .already := by
  simp only [State.turnNow, live, Bool.not_true, Bool.false_eq_true, if_false, h]

theorem State.turnNow_nothing (live : s.site.state.turnTimerRuns = true) (idle : s.conditions.turn = .idle)
    (h : ¬ s.HasWork) : s.turnNow = refuse s .nothing := by
  have nothing : s.somethingToApply = false := by rwa [← Bool.not_eq_true, State.somethingToApply_iff]
  simp only [State.turnNow, live, Bool.not_true, Bool.false_eq_true, if_false, idle, nothing]

theorem State.turnNow_begins (live : s.site.state.turnTimerRuns = true) (idle : s.conditions.turn = .idle)
    (h : s.HasWork) : s.turnNow = accept (s.beginTurn .request) := by
  have something : s.somethingToApply = true := s.somethingToApply_iff.mpr h
  simp only [State.turnNow, live, Bool.not_true, Bool.false_eq_true, if_false, idle, something, if_true]

theorem exec_turnTimerExpiry (running : s.Running) {length : Nat} (timer : s.conditions.timer = some length) :
    exec .turnTimerExpiry s = .next (s.startTurnTimer.askTurn .timer) := by
  change Host.Outcome.next (s.event _) = _
  rw [State.event_of_running running]
  simp only [State.turnTimerExpiry, timer]
  rfl

end

end Sys2Proof.Machine
end

section

open Sys2Proof Sys2Proof.Machine

/-- Settles O32: both causes begin a turn by `State.beginTurn`, which applies it by `State.applyTurn` when no lane is
SEARCHING; the reply of TURN NOW and the turn write different parts of the link (`State.applyTurn_hunting`). -/
theorem turnsBeginOnRequestAndByTimer : Obligations.TurnsBeginOnRequestAndByTimer := by
  refine ⟨fun s started => ⟨fun notValid notDraining => ?_, fun available => ?_⟩, fun s length running timer => ?_⟩
  · have closed : s.hunting.site.state.turnTimerRuns = false := SiteState.turnTimerRuns_eq_false notValid notDraining
    rw [exec_turnNow started, State.turnNow_unavailable closed]
    exact congrArg _ (s.refuse_replied .turnNow .siteUnavailable (by decide))
  · have live : s.hunting.site.state.turnTimerRuns = true := (SiteState.turnTimerRuns_iff _).mpr available
    rw [exec_turnNow started]
    refine ⟨fun cause waiting => ?_, fun idle nothing => ?_, fun idle work searching => ?_, fun idle work free => ?_⟩
    · rw [State.turnNow_already live waiting]
      exact congrArg _ (s.refuse_replied .turnNow .already (by decide))
    · rw [State.turnNow_nothing live idle nothing]
      exact congrArg _ (s.refuse_replied .turnNow .nothing (by decide))
    · rw [State.turnNow_begins live idle work, State.beginTurn_searching (s := s.hunting) searching]
      rfl
    · obtain ⟨_, _, _, _, _, _, _, _, turned⟩ := s.applyTurn_frame .request
      rw [State.turnNow_begins live idle work, State.beginTurn_applies (s := s.hunting) free, State.applyTurn_hunting,
        State.applyStep_waiting .request started.1.1 free, turned]
      exact ⟨_, rfl, rfl, rfl, rfl, rfl, rfl, rfl, rfl⟩
  · intro restarted
    rw [exec_turnTimerExpiry running timer]
    refine ⟨fun refused => ?_, fun idle work searching => ?_, fun idle work free => ?_⟩
    · rw [State.askTurn_refused (s := s.startTurnTimer) refused]
      rfl
    · rw [State.askTurn_begins (s := s.startTurnTimer) idle work,
        State.beginTurn_searching (s := s.startTurnTimer) searching]
      rfl
    · obtain ⟨_, _, _, _, _, _, _, _, turned⟩ := s.startTurnTimer.applyTurn_frame .timer
      rw [State.askTurn_begins (s := s.startTurnTimer) idle work, State.beginTurn_applies (s := s.startTurnTimer) free]
      refine ⟨_, rfl, State.applyStep_waiting (s := s.startTurnTimer) .timer running free, ?_, ?_⟩
      · rw [turned]
        rfl
      · rw [turned]
        rfl

end

section
/-! SUPPORT. The live values under a turn's writes (R101, R111). -/

namespace Sys2Proof.Machine

/-- R101, R106: the code of a target's live value, as the Condition Unit holds it. -/
def ConditionUnit.liveCode (u : ConditionUnit) (t : Target) : Option Nat :=
  match t.kind with
  | .edge => some (Table.get Closure.opened u.closures t.index).code
  | .motion => (Table.get none u.motions t.index).map Motion.code
  | .gate => some (Table.get Closure.opened u.gates t.index).code

theorem State.liveCode_eq (s : State) (t : Target) : s.liveCode t = s.conditions.liveCode t := by
  unfold State.liveCode ConditionUnit.liveCode
  cases t.kind <;> rfl

/-- The tables that edits write are canonical. -/
structure ConditionUnit.EditsCanonical (u : ConditionUnit) : Prop where
  closures : Table.wf .opened u.closures = true
  motions : Table.wf none u.motions = true
  gates : Table.wf .opened u.gates = true

theorem State.Canonical.editsCanonical {s : State} (h : s.Canonical) : s.conditions.EditsCanonical :=
  ⟨h.closures, h.motions, h.gates⟩

section

variable {u : ConditionUnit} {e : Edit}

theorem ConditionUnit.EditsCanonical.write (h : u.EditsCanonical) (e : Edit) : (u.write e).EditsCanonical := by
  unfold ConditionUnit.write
  split
  · exact { h with closures := Table.wf_set _ h.closures _ _ }
  · exact { h with gates := Table.wf_set _ h.gates _ _ }
  · exact { h with motions := Table.wf_set _ h.motions _ _ }
  · exact h

/-- R111: an edit's value becomes its target's live value. -/
theorem ConditionUnit.write_liveCode_self (h : u.EditsCanonical) (belongs : e.value.belongsTo e.target.kind = true) :
    (u.write e).liveCode e.target = some e.value.code := by
  obtain ⟨⟨kind, index⟩, value, source⟩ := e
  cases kind with
  | edge =>
    cases value with
    | closure c => exact congrArg (fun c => some (Closure.code c)) (Table.get_set_self _ h.closures _ _)
    | motion => cases belongs
  | motion =>
    cases value with
    | closure => cases belongs
    | motion m => exact congrArg (Option.map Motion.code) (Table.get_set_self _ h.motions _ _)
  | gate =>
    cases value with
    | closure c => exact congrArg (fun c => some (Closure.code c)) (Table.get_set_self _ h.gates _ _)
    | motion => cases belongs

theorem ConditionUnit.write_liveCode_of_ne {t : Target} (other : e.target ≠ t) : (u.write e).liveCode t = u.liveCode t := by
  obtain ⟨⟨kind, index⟩, value, source⟩ := e
  obtain ⟨readKind, read⟩ := t
  have apart (same : kind = readKind) : read ≠ index := fun eq => other (by rw [same, eq])
  match kind, value with
  | .edge, .closure c =>
    cases readKind with
    | edge => exact congrArg (fun c => some (Closure.code c)) (Table.get_set_of_ne _ _ _ (apart rfl))
    | motion => rfl
    | gate => rfl
  | .motion, .motion m =>
    cases readKind with
    | edge => rfl
    | motion => exact congrArg (Option.map Motion.code) (Table.get_set_of_ne _ _ _ (apart rfl))
    | gate => rfl
  | .gate, .closure c =>
    cases readKind with
    | edge => rfl
    | motion => rfl
    | gate => exact congrArg (fun c => some (Closure.code c)) (Table.get_set_of_ne _ _ _ (apart rfl))
  | .edge, .motion _ => rfl
  | .motion, .closure _ => rfl
  | .gate, .motion _ => rfl

theorem ConditionUnit.writes_liveCode_of_ne {t : Target} (edits : List Edit) (others : ∀ e ∈ edits, e.target ≠ t) :
    (edits.foldl ConditionUnit.write u).liveCode t = u.liveCode t := by
  induction edits generalizing u with
  | nil => rfl
  | cons e rest ih =>
    rw [List.foldl_cons, ih fun x hx => others x (.tail _ hx), ConditionUnit.write_liveCode_of_ne (others e (.head _))]

theorem ConditionUnit.writes_liveCode_self (h : u.EditsCanonical) {edits : List Edit}
    (once : (edits.map Edit.target).Nodup) (belong : ∀ e ∈ edits, e.value.belongsTo e.target.kind = true) :
    ∀ e ∈ edits, (edits.foldl ConditionUnit.write u).liveCode e.target = some e.value.code := by
  induction edits generalizing u with
  | nil => nofun
  | cons first rest ih =>
    obtain ⟨fresh, once⟩ := List.nodup_cons.mp once
    intro e he
    rw [List.foldl_cons]
    rcases List.mem_cons.mp he with rfl | he
    · rw [ConditionUnit.writes_liveCode_of_ne rest fun x hx same => fresh (List.mem_map.mpr ⟨x, hx, same⟩)]
      exact ConditionUnit.write_liveCode_self h (belong e (.head _))
    · exact ih (h.write first) once (fun x hx => belong x (.tail _ hx)) e he

end

end Sys2Proof.Machine
end

section
/-! SUPPORT. Offers of schedule entries: with room for all of them, outside VALID, and of LATE entries (R105, R141,
R143). -/

namespace Sys2Proof.Machine

/-- R105: the list with the edits of these entries placed one after the other. -/
def State.putEntries (s : State) (entries : List Nat) (edits : List Edit) : List Edit :=
  entries.foldl (fun edits i => putEdit (s.scheduleEdit i) edits) edits

section

variable {s : State}

/-! ### With room (R104, R105) -/

theorem State.putEntries_cons (i : Nat) (rest : List Nat) (edits : List Edit) :
    s.putEntries (i :: rest) edits = s.putEntries rest (putEdit (s.scheduleEdit i) edits) := rfl

theorem State.offerEntry_of_room (valid : s.site.state = .valid) (room : s.conditions.edits.length < 64) (i : Nat) :
    s.offerEntry i = (s.setEdits (putEdit (s.scheduleEdit i) s.conditions.edits)).setLate
      (s.schedule.late.filter fun j => j ≠ i) := by
  have placed : s.offerPlaced i = some (putEdit (s.scheduleEdit i) s.conditions.edits) :=
    (if_pos valid).trans (placeEdit_of_room room)
  simp only [State.offerEntry, placed]

/-- R105, R141: every entry is placed and leaves the LATE list. -/
theorem State.offerEntries_of_room {entries : List Nat} (valid : s.site.state = .valid)
    (room : s.conditions.edits.length + entries.length ≤ 64) :
    s.offerEntries entries = (s.setEdits (s.putEntries entries s.conditions.edits)).setLate
      (s.schedule.late.filter fun j => j ∉ entries) := by
  induction entries generalizing s with
  | nil => simp [State.offerEntries, State.putEntries, State.setEdits, State.setLate]
  | cons i rest ih =>
    rw [List.length_cons] at room
    have longer := putEdit_length_le (edit := s.scheduleEdit i) (edits := s.conditions.edits)
    have late : ((s.schedule.late.filter fun j => j ≠ i).filter fun j => j ∉ rest) =
        s.schedule.late.filter fun j => j ∉ i :: rest := by
      rw [List.filter_filter]
      congr 1
      funext j
      simp [Bool.and_comm]
    rw [State.offerEntries_cons, State.offerEntry_of_room valid (by omega), ih (by exact valid) (by dsimp; omega)]
    dsimp only [State.setLate_schedule_late, State.setEdits_schedule]
    rw [late]
    rfl

/-- R105: the list holds what it held for targets of no entry, and for each entry's target the value of the last entry
for it. -/
theorem State.mem_putEntries {x : Edit} {entries : List Nat} {edits : List Edit} : x ∈ s.putEntries entries edits ↔
    (x ∈ edits ∧ ∀ i ∈ entries, (s.scheduleEntry i).target ≠ x.target) ∨
    ∃ before i after, entries = before ++ i :: after ∧
      (∀ j ∈ after, (s.scheduleEntry j).target ≠ (s.scheduleEntry i).target) ∧ x = s.scheduleEdit i := by
  induction entries generalizing edits with
  | nil => simp [State.putEntries]
  | cons first rest ih =>
    rw [State.putEntries_cons, ih, mem_putEdit]
    constructor
    · rintro (⟨rfl | ⟨hx, other⟩, others⟩ | ⟨before, i, after, rfl, last, rfl⟩)
      · exact .inr ⟨[], first, rest, rfl, others, rfl⟩
      · exact .inl ⟨hx, List.forall_mem_cons.mpr ⟨fun same => other same.symm, others⟩⟩
      · exact .inr ⟨first :: before, i, after, rfl, last, rfl⟩
    · rintro (⟨hx, others⟩ | ⟨before, i, after, list, last, rfl⟩)
      · obtain ⟨other, others⟩ := List.forall_mem_cons.mp others
        exact .inl ⟨.inr ⟨hx, fun same => other same.symm⟩, others⟩
      · cases before with
        | nil =>
          cases list
          exact .inl ⟨.inl rfl, last⟩
        | cons _ before =>
          cases list
          exact .inr ⟨before, i, after, rfl, last, rfl⟩

theorem State.putEntries_nodup {entries : List Nat} {edits : List Edit} (h : (edits.map Edit.target).Nodup) :
    ((s.putEntries entries edits).map Edit.target).Nodup := by
  induction entries generalizing edits with
  | nil => exact h
  | cons i rest ih => exact ih (putEdit_nodup h)

/-! ### Outside VALID (R141) -/

theorem State.offerEntry_of_closed (closed : s.site.state ≠ .valid) (i : Nat) : s.offerEntry i = s.markLate i := by
  have refused : s.offerPlaced i = none := if_neg closed
  simp only [State.offerEntry, refused]

/-- R141: each entry stands in the LATE list, those not on it before joining it in the order of the offers. -/
theorem State.offerEntries_of_closed (entries : List Nat) (closed : s.site.state ≠ .valid) :
    (s.offerEntries entries).conditions = s.conditions ∧
    ∃ marked, (s.offerEntries entries).schedule.late = s.schedule.late ++ marked ∧ marked.Sublist entries ∧
      ∀ i ∈ entries, i ∈ s.schedule.late ++ marked := by
  induction entries generalizing s with
  | nil => exact ⟨rfl, [], (List.append_nil _).symm, .slnil, nofun⟩
  | cons i rest ih =>
    rw [State.offerEntries_cons, State.offerEntry_of_closed closed, State.markLate]
    split
    next listed =>
      obtain ⟨same, marked, late, sub, all⟩ := ih closed
      exact ⟨same, marked, late, sub.cons i, List.forall_mem_cons.mpr ⟨List.mem_append_left _ listed, all⟩⟩
    next =>
      obtain ⟨same, marked, late, sub, all⟩ := ih (s := (s.setLate (s.schedule.late ++ [i])).offer _) closed
      have joined : s.schedule.late ++ [i] ++ marked = s.schedule.late ++ i :: marked := List.append_cons _ _ _ |>.symm
      exact ⟨same, i :: marked, late.trans joined, sub.cons_cons i,
        List.forall_mem_cons.mpr ⟨by simp, fun j hj => joined ▸ all j hj⟩⟩

/-- R141: entries that are all LATE stay so, and nothing else happens. -/
theorem State.offerEntries_of_late {entries : List Nat} (closed : s.site.state ≠ .valid)
    (late : ∀ i ∈ entries, i ∈ s.schedule.late) : s.offerEntries entries = s := by
  induction entries with
  | nil => rfl
  | cons i rest ih =>
    have stays : s.offerEntry i = s := (State.offerEntry_of_closed closed i).trans (if_pos (late i (.head _)))
    rw [State.offerEntries_cons, stays, ih fun j hj => late j (.tail _ hj)]

/-! ### LATE entries offered again (R143) -/

/-- R141: the offer of this entry gives no notice: it is LATE already, or its target stands in the list of a VALID site. -/
def State.Told (s : State) (i : Nat) : Prop :=
  i ∈ s.schedule.late ∨ (s.site.state = .valid ∧ ∃ e ∈ s.conditions.edits, e.target = (s.scheduleEntry i).target)

theorem State.offerPlaced_eq_some {i : Nat} {edits : List Edit} (h : s.offerPlaced i = some edits) :
    s.site.state = .valid ∧ edits = putEdit (s.scheduleEdit i) s.conditions.edits := by
  unfold State.offerPlaced at h
  split at h
  next valid => exact ⟨valid, placeEdit_eq_some h⟩
  next => cases h

theorem State.Told.offerEntry_link {i : Nat} (h : s.Told i) : (s.offerEntry i).link = s.link := by
  unfold State.offerEntry
  split
  · rfl
  next refused =>
    have late : i ∈ s.schedule.late := h.resolve_right fun ⟨valid, listed⟩ => by
      have placed : s.offerPlaced i = some _ := (if_pos valid).trans (placeEdit_of_listed listed)
      rw [refused] at placed
      cases placed
    rw [State.markLate, if_pos late]

theorem State.Told.offerEntry {i : Nat} (h : s.Told i) (j : Nat) : (s.offerEntry j).Told i := by
  unfold State.offerEntry
  split
  next edits placed =>
    obtain ⟨valid, rfl⟩ := State.offerPlaced_eq_some placed
    rcases h with late | ⟨-, listed⟩
    · by_cases same : i = j
      · exact .inr ⟨valid, s.scheduleEdit j, (mem_putEdit _).mpr (.inl rfl), by rw [same]; rfl⟩
      · exact .inl (List.mem_filter.mpr ⟨late, decide_eq_true same⟩)
    · exact .inr ⟨valid, putEdit_listed listed⟩
  next =>
    unfold State.markLate
    split
    · exact h
    · exact h.imp_left fun late => List.mem_append_left _ late

/-- Entries whose offers give no notice leave the link as it is. -/
theorem State.offerEntries_link {entries : List Nat} (h : ∀ i ∈ entries, s.Told i) :
    (s.offerEntries entries).link = s.link := by
  induction entries generalizing s with
  | nil => rfl
  | cons i rest ih =>
    exact (ih fun j hj => (h j (.tail _ hj)).offerEntry i).trans (h i (.head _)).offerEntry_link

end

end Sys2Proof.Machine
end

section
/-! SUPPORT. The apply step, seen at the end of its turn (R110 to R112, R143). -/

namespace Sys2Proof.Machine

section

variable {s : State} {cause : TurnCause}

theorem exec_applyStep_searching (running : s.Running) (turn : s.conditions.turn = .waiting cause) (h : s.Searching) :
    exec .applyStep s = .next s := by
  change Host.Outcome.next (s.event _) = _
  rw [State.event_of_running running]
  simp only [State.applyStep, turn, s.anySearching_iff.mpr h, if_true]

theorem exec_applyStep_free (running : s.Running) (turn : s.conditions.turn = .waiting cause) (h : ¬ s.Searching) :
    exec .applyStep s = .next (s.applyTurn cause) := by
  have same : s = { s with conditions := { s.conditions with turn := .waiting cause } } := by rw [← turn]
  conv_lhs => rw [same]
  exact State.applyStep_waiting cause running h

/-! ### What the refiring of the LATE entries leaves (R143) -/

/-- Offers write no live value. -/
theorem State.OffersOnly.liveCode {t : State} (h : s.OffersOnly t) (target : Target) :
    t.liveCode target = s.liveCode target := by
  obtain ⟨_, _, _, _, _, rfl⟩ := h
  rfl

theorem State.turned_conditions (s : State) (cause : TurnCause) : (s.turned cause).conditions =
    { s.conditions.edits.foldl ConditionUnit.write s.conditions with
      levels := s.publishedNow, edits := [], epoch := s.conditions.epoch + 1, turn := .idle } := by
  simp only [State.turned, State.applied]

theorem State.applyTurn_offersOnly (s : State) (cause : TurnCause) : (s.turned cause).OffersOnly (s.applyTurn cause) :=
  State.offerEntries_offersOnly _ _

/-- R111: a turn reads and writes the live values as the Condition Unit's writes leave them. -/
theorem State.applyTurn_liveCode (target : Target) : (s.applyTurn cause).liveCode target =
    (s.conditions.edits.foldl ConditionUnit.write s.conditions).liveCode target := by
  rw [(s.applyTurn_offersOnly cause).liveCode, State.liveCode_eq, State.turned_conditions]
  unfold ConditionUnit.liveCode
  cases target.kind <;> rfl

/-- R111 step 2. -/
theorem State.applyTurn_published {c : Nat} (h : c < 64) : (s.applyTurn cause).published c = (s.channel c).level := by
  obtain ⟨_, _, _, _, _, _, _, _, turned⟩ := s.applyTurn_frame cause
  have levels : (s.applyTurn cause).conditions.levels = s.publishedNow := by rw [turned]
  rw [State.published, levels, State.publishedNow, Table.get_tabulate, if_pos h]

/-- R141, R143: an entry that was LATE is told of no second time, so TURN DONE is the turn's only notice. -/
theorem State.applyTurn_link : (s.applyTurn cause).link =
    s.link.offer (.turnDone (s.conditions.epoch + 1) s.conditions.edits.length s.levelChanges cause) :=
  State.offerEntries_link (s := s.turned cause) fun _ late => .inl late

/-- R143: with room for all of them, the LATE entries' edits fill the emptied list. -/
theorem State.applyTurn_of_room (valid : s.site.state = .valid) (room : s.schedule.late.length ≤ 64) :
    s.applyTurn cause = ((s.turned cause).setEdits (s.putEntries s.schedule.late [])).setLate [] := by
  have gone : (s.schedule.late.filter fun i => i ∉ s.schedule.late) = [] := by simp
  rw [State.applyTurn_eq, State.offerEntries_of_room (s := s.turned cause) valid
    (by simpa [State.turned_conditions] using room)]
  change State.setLate _ (s.schedule.late.filter fun i => i ∉ s.schedule.late) = _
  rw [gone]
  rfl

end

end Sys2Proof.Machine
end

section

open Sys2Proof Sys2Proof.Machine

/-- Settles O33: the live values are those of `ConditionUnit.write` over the list, and the LATE entries are offered to the
list that the turn has emptied. -/
theorem applyStepAppliesTheTurn : Obligations.ApplyStepAppliesTheTurn := by
  refine ⟨fun s cause running waiting => ⟨exec_applyStep_searching running waiting, fun free canonical once belong => ?_⟩,
    fun s cause running waiting free => ⟨_, exec_applyStep_free running waiting free, fun closed => ?_,
      fun valid room => ?_⟩⟩
  · refine ⟨_, exec_applyStep_free running waiting free, fun e he => ?_, fun target others => ?_,
      fun c below => State.applyTurn_published below, ?_⟩
    · rw [State.applyTurn_liveCode]
      exact ConditionUnit.writes_liveCode_self canonical.editsCanonical once belong e he
    · rw [State.applyTurn_liveCode, ConditionUnit.writes_liveCode_of_ne _ others, State.liveCode_eq]
    · obtain ⟨_, _, _, _, _, _, _, _, turned⟩ := s.applyTurn_frame cause
      refine ⟨?_, ?_, ?_, fun empty => ?_, State.applyTurn_link, ?_⟩
      · rw [turned]
      · rw [turned]
      · rw [turned]
      · rw [State.applyTurn_eq, empty]
        rfl
      · rw [turned]
  · rw [State.applyTurn_eq, State.offerEntries_of_late (s := s.turned cause) (entries := s.schedule.late) closed
      fun _ late => late]
    exact ⟨rfl, by rw [State.turned_conditions]⟩
  · have mem := fun x => State.mem_putEntries (s := s) (x := x) (entries := s.schedule.late) (edits := [])
    rw [State.applyTurn_of_room valid room]
    refine ⟨rfl, State.putEntries_nodup List.nodup_nil, fun before i after list last =>
      (mem _).mpr (.inr ⟨before, i, after, list, last, rfl⟩), fun e he => ?_⟩
    obtain ⟨held, -⟩ | ⟨before, i, after, list, -, rfl⟩ := (mem e).mp he
    · cases held
    · exact ⟨i, by simp [list], rfl⟩

end

section
/-! SUPPORT. The minute boundary: the entries that are due, and what their offers leave in VALID and in DRAINING (R140 to
R142). -/

namespace Sys2Proof.Machine

section

variable {s : State}

/-- The state in which a boundary's entries are offered: its mark is served (R140). -/
def State.served (s : State) : State := { s with schedule := { s.schedule with boundaryDue := false } }

theorem exec_minuteBoundary_none (running : s.Running) (h : s.schedule.boundaryDue = false) :
    exec .minuteBoundary s = .next s := by
  change Host.Outcome.next (s.event _) = _
  rw [State.event_of_running running]
  simp only [State.minuteBoundary, h, Bool.false_eq_true, if_false]

theorem exec_minuteBoundary_served (running : s.Running) (due : s.schedule.boundaryDue = true)
    (h : s.schedule.clockSet = false ∨ s.site.state.turnTimerRuns = false) :
    exec .minuteBoundary s = .next s.served := by
  have off : (s.schedule.clockSet && s.site.state.turnTimerRuns) = false :=
    Bool.and_eq_false_iff.mpr h
  change Host.Outcome.next (s.event _) = _
  rw [State.event_of_running running]
  simp only [State.minuteBoundary, due, if_true, off, Bool.false_eq_true, if_false]
  rfl

theorem exec_minuteBoundary_offers (running : s.Running) (due : s.schedule.boundaryDue = true)
    (clock : s.schedule.clockSet = true) (available : s.site.state = .valid ∨ s.site.state = .draining) :
    exec .minuteBoundary s = .next (s.served.offerEntries s.dueEntries) := by
  change Host.Outcome.next (s.event _) = _
  rw [State.event_of_running running]
  have on : (s.schedule.clockSet && s.site.state.turnTimerRuns) = true :=
    Bool.and_eq_true_iff.mpr ⟨clock, (SiteState.turnTimerRuns_iff _).mpr available⟩
  exact congrArg _ ((if_pos due).trans (if_pos on))

/-! ### The entries due (R140) -/

theorem State.mem_dueEntries (i : Nat) :
    i ∈ s.dueEntries ↔ s.Fires s.schedule.day i ∧ (s.scheduleEntry i).minute = s.schedule.second / 60 := by
  simp only [State.dueEntries, List.mem_filter, List.mem_range, Bool.and_eq_true, decide_eq_true_eq]
  exact ⟨fun ⟨within, ⟨enabled, minute⟩, day⟩ => ⟨⟨within, enabled, day⟩, minute⟩,
    fun ⟨⟨within, enabled, day⟩, minute⟩ => ⟨within, ⟨enabled, minute⟩, day⟩⟩

theorem State.dueEntries_ascending (s : State) : s.dueEntries.Pairwise (· < ·) := List.pairwise_lt_range.filter _

theorem State.dueEntries_length_le (s : State) : s.dueEntries.length ≤ s.site.header.scheduleCount :=
  (List.length_filter_le _ _).trans_eq List.length_range

end

end Sys2Proof.Machine
end

section

open Sys2Proof Sys2Proof.Machine

/-- Settles O35: the row offers `State.dueEntries` in their ascending order. -/
theorem minuteBoundaryFiresTheDueEntries : Obligations.MinuteBoundaryFiresTheDueEntries := by
  intro s running due served
  have members (i : Nat) : i ∈ s.dueEntries ↔ due i := State.mem_dueEntries i
  refine ⟨exec_minuteBoundary_none running, fun boundary clock available once => ?_, fun boundary =>
    ⟨fun off => ?_, fun clock draining => ?_, fun clock valid room => ?_⟩⟩
  · exact ⟨s.dueEntries, _, exec_minuteBoundary_offers running boundary clock available,
      members, s.dueEntries_ascending, State.offerEntries_offers _ s.served once⟩
  · refine exec_minuteBoundary_served running boundary (off.imp_right fun ⟨notValid, notDraining⟩ => ?_)
    exact SiteState.turnTimerRuns_eq_false notValid notDraining
  · have closed : s.served.site.state ≠ .valid := fun valid => nomatch draining.symm.trans valid
    obtain ⟨same, marked, late, sub, all⟩ := State.offerEntries_of_closed s.dueEntries closed
    refine ⟨_, exec_minuteBoundary_offers running boundary clock (.inr draining),
      same, fun i => ?_, ⟨marked, late, s.dueEntries_ascending.sublist sub⟩, ?_⟩
    · rw [late, ← members]
      exact ⟨fun h => (List.mem_append.mp h).imp_right fun listed => sub.subset listed,
        fun h => h.elim (List.mem_append_left _) (all i)⟩
    · obtain ⟨edits, _, _, _, _, written⟩ := s.served.offerEntries_offersOnly s.dueEntries
      rw [written] at same ⊢
      obtain rfl : edits = s.conditions.edits := congrArg ConditionUnit.edits same
      rfl
  · have fits := s.dueEntries_length_le
    have offered := State.offerEntries_of_room (s := s.served) (entries := s.dueEntries) valid
      (by change s.conditions.edits.length + _ ≤ 64; omega)
    have mem := fun x => State.mem_putEntries (s := s) (x := x) (entries := s.dueEntries) (edits := s.conditions.edits)
    refine ⟨_, (exec_minuteBoundary_offers running boundary clock (.inl valid)).trans
      (congrArg _ offered), fun i fires last => ?_, fun e held others => ?_, fun i => ?_, rfl⟩
    · obtain ⟨before, after, list⟩ := List.append_of_mem ((members i).mpr fires)
      have above : ∀ j ∈ after, i < j := by
        have ascending := s.dueEntries_ascending
        rw [list] at ascending
        obtain ⟨-, behind, -⟩ := List.pairwise_append.mp ascending
        exact fun j => List.rel_of_pairwise_cons behind
      have listed (j : Nat) (hj : j ∈ after) : due j := (members j).mp (by simp [list, hj])
      have final : ∀ j ∈ after, (s.scheduleEntry j).target ≠ (s.scheduleEntry i).target := fun j hj =>
        last j (listed j hj) (above j hj)
      exact ⟨s.scheduleEdit i, (mem _).mpr (.inr ⟨before, i, after, list, final, rfl⟩), rfl, rfl, rfl⟩
    · exact (mem e).mpr (.inl ⟨held, fun i listed => others i ((members i).mp listed)⟩)
    · change i ∈ s.schedule.late.filter (fun j => j ∉ s.dueEntries) ↔ _
      rw [List.mem_filter, decide_eq_true_iff, members]

end

section
/-! SUPPORT. One sample of a channel: the values that move, the levels, the debounce and plateau counts, and the branches of
its processing (R124 to R133). -/

namespace Sys2Proof.Machine

section

variable {c : ChannelConfig} {f d average : Int} {level : Level} {debounce : Nat}

/-! ### Values in sixteenths (R124, R128, R129) -/

theorem moveToward_eq_fdiv (value target : Int) (shift : Nat) :
    moveToward value target shift = value + (target - value).fdiv (2 ^ shift) := by
  rw [Int.fdiv_eq_ediv_of_nonneg _ (by positivity)]
  rfl

theorem averageAfter_clear (delta : Int) : averageAfter c .clear f average delta =
    (average + (f - average).fdiv (2 ^ c.averageShift), average + (f - average).fdiv (2 ^ c.averageShift) - average) := by
  rw [← moveToward_eq_fdiv]
  rfl

theorem averageAfter_of_ne_clear (h : level ≠ .clear) (delta : Int) : averageAfter c level f average delta =
    (if c.role = .follower then max 0 (min (average + (delta * c.weight).fdiv 4096) 16368) else average, 0) := by
  rw [Int.fdiv_eq_ediv_of_nonneg _ (by decide)]
  cases level with
  | clear => exact absurd rfl h
  | _ => exact (apply_ite (·, (0 : Int)) _ _ _).symm

/-- R129: only a FOLLOWER takes the change of its reference. -/
theorem averageAfter_of_ne_follower (h : c.role ≠ .follower) (delta : Int) :
    averageAfter c level f average delta = averageAfter c level f average 0 := by
  cases level with
  | clear => rfl
  | _ => exact (if_neg h).trans (if_neg h).symm

/-! ### Levels (R125, R126) -/

theorem candidateLevel_eq : candidateLevel c f d =
    if 16 * (c.crowded : Int) ≤ d ∨ 16 * (c.ceiling : Int) ≤ f then .crowded
    else if 16 * (c.busy : Int) ≤ d then .busy else .clear := by
  simp only [candidateLevel, Bool.or_eq_true, decide_eq_true_eq]

theorem candidateLevel_eq_crowded_iff :
    candidateLevel c f d = .crowded ↔ 16 * (c.crowded : Int) ≤ d ∨ 16 * (c.ceiling : Int) ≤ f := by
  rw [candidateLevel_eq]
  split_ifs <;> simp_all

theorem candidateLevel_eq_busy_iff : candidateLevel c f d = .busy ↔
    ¬ (16 * (c.crowded : Int) ≤ d ∨ 16 * (c.ceiling : Int) ≤ f) ∧ 16 * (c.busy : Int) ≤ d := by
  rw [candidateLevel_eq]
  split_ifs <;> simp_all

theorem candidateLevel_above_busy_iff : (candidateLevel c f d).above .busy = true ↔
    16 * (c.crowded : Int) ≤ d ∨ 16 * (c.ceiling : Int) ≤ f := by
  rw [candidateLevel_eq]
  split_ifs <;> simp_all [Level.above]

theorem candidateLevel_above_clear_iff : (candidateLevel c f d).above .clear = true ↔
    (¬ (16 * (c.crowded : Int) ≤ d ∨ 16 * (c.ceiling : Int) ≤ f) ∧ 16 * (c.busy : Int) ≤ d) ∨
      16 * (c.crowded : Int) ≤ d ∨ 16 * (c.ceiling : Int) ≤ f := by
  rw [candidateLevel_eq]
  split_ifs <;> simp_all [Level.above]

theorem crowdedHolds_iff : crowdedHolds c f d = true ↔
    16 * ((c.crowded : Int) - c.hysteresis) ≤ d ∨ 16 * ((c.ceiling : Int) - c.hysteresis) ≤ f := by
  simp [crowdedHolds]

theorem busyHolds_iff : busyHolds c d = true ↔ 16 * ((c.busy : Int) - c.hysteresis) ≤ d := by
  simp [busyHolds]

theorem Level.not_above_crowded (level : Level) : level.above .crowded = false := by
  cases level <;> rfl

/-! ### The level and the debounce count (R126, R127) -/

theorem levelAndDebounce_of_drop (h : levelHeld c f d level ≠ level) :
    levelAndDebounce c f d level debounce = (levelHeld c f d level, 0) := if_pos h

/-- R127: at a level that holds, the debounce count runs toward a candidate above it. -/
theorem levelAndDebounce_of_held (held : levelHeld c f d level = level) (debounce : Nat) :
    levelAndDebounce c f d level debounce =
      if (candidateLevel c f d).above level = true then
        if debounce + 1 = c.debounce then (candidateLevel c f d, 0) else (level, debounce + 1)
      else (level, 0) := if_neg (not_not.mpr held)

theorem levelHeld_self (h : (level = .busy ∧ busyHolds c d = true) ∨ level = .clear) :
    levelHeld c f d level = level := by
  rcases h with ⟨rfl, holds⟩ | rfl
  · exact if_pos holds
  · rfl

theorem levelAndDebounce_crowded (debounce : Nat) : levelAndDebounce c f d .crowded debounce =
    (if crowdedHolds c f d then .crowded else if busyHolds c d then .busy else .clear, 0) := by
  by_cases h : crowdedHolds c f d = true
  · have held : levelHeld c f d .crowded = .crowded := if_pos h
    rw [if_pos h, levelAndDebounce_of_held held, if_neg (by simp [Level.not_above_crowded])]
  · have held : levelHeld c f d .crowded = if busyHolds c d then .busy else .clear := if_neg h
    rw [if_neg h, ← held]
    refine levelAndDebounce_of_drop ?_
    rw [held]
    split <;> decide

theorem levelAndDebounce_busy_drop (h : ¬ busyHolds c d = true) (debounce : Nat) :
    levelAndDebounce c f d .busy debounce = (.clear, 0) := by
  have held : levelHeld c f d .busy = .clear := if_neg h
  rw [levelAndDebounce_of_drop (by rw [held]; decide), held]

/-! ### The plateau count (R130) -/

theorem plateauAfter_zero (h : level = .clear ∨ c.plateauSamples = 0) (activation : Int) (plateau : Nat) :
    plateauAfter c level f activation plateau = 0 := by
  rcases h with rfl | off
  · rfl
  · cases level with
    | clear => rfl
    | _ => exact if_pos off

theorem plateauAfter_counts (h : level ≠ .clear) (on : c.plateauSamples ≠ 0) (activation : Int) (plateau : Nat) :
    plateauAfter c level f activation plateau =
      if (f - activation).natAbs < 16 * c.settleBand then plateau + 1 else 0 := by
  cases level with
  | clear => exact absurd rfl h
  | _ => exact if_neg on

end

/-! ### A good sample (R122, R124 to R131, R133) -/

section

variable (c : ChannelConfig) (ch : Channel)

/-- R124 to R130: the values that the steps give, whether they reseed, and the channel they leave. -/
theorem processTracking_cases (count : Nat) (delta : Int) :
    let after := processTracking c ch count delta
    let f := ch.filter + (16 * (count : Int) - ch.filter).fdiv (2 ^ c.filterShift)
    let activation := ch.activation + (16 * (count : Int) - ch.activation).fdiv (2 ^ c.activationShift)
    ∃ level debounce average change plateau,
      levelAndDebounce c f (f - ch.average) ch.level ch.debounce = (level, debounce) ∧
      averageAfter c level f ch.average delta = (average, change) ∧
      plateauAfter c level f activation ch.plateau = plateau ∧
      (after.reseeded = true ↔ level ≠ .clear ∧ c.plateauSamples ≠ 0 ∧ plateau = c.plateauSamples) ∧
      (after.reseeded = false → after.channel =
        { state := .tracking, level := level, filter := f, average := average, activation := activation
          debounce := debounce, plateau := plateau, missed := 0, change := change, lastCount := some count }) ∧
      (after.reseeded = true → after.channel =
        { state := .tracking, level := reseedLevel c f, filter := f, average := f, activation := activation
          debounce := 0, plateau := 0, missed := 0, change := change, lastCount := some count }) := by
  simp only [← moveToward_eq_fdiv]
  refine ⟨_, _, _, _, _, Prod.mk.eta.symm, Prod.mk.eta.symm, rfl, ?_⟩
  dsimp only [processTracking]
  split
  next reseeds =>
    refine ⟨iff_of_true rfl ?_, nofun, fun _ => rfl⟩
    simpa [and_assoc] using reseeds
  next stays =>
    refine ⟨iff_of_false nofun ?_, fun _ => rfl, nofun⟩
    simpa [and_assoc] using stays

variable {c ch}

theorem processSample_tracking (h : ch.state = .tracking) (count : Nat) (delta : Int) :
    processSample c ch (some count) delta = processTracking c ch count delta := by
  simp only [processSample, h]

theorem processSample_seeding (h : ch.state = .seeding) (count : Nat) (delta : Int) :
    (processSample c ch (some count) delta).channel = processSeeding count := by
  simp only [processSample, h]

theorem processSample_stale (h : ch.state = .stale) (count : Nat) (delta : Int) :
    (processSample c ch (some count) delta).channel = processStale ch count := by
  simp only [processSample, h]

/-- R129: the sample of a channel that is no FOLLOWER is processed without the change of its reference. -/
theorem processSample_of_ne_follower (h : c.role ≠ .follower) (sample : Option Nat) (delta : Int) :
    processSample c ch sample delta = processSample c ch sample 0 := by
  cases sample with
  | none => rfl
  | some count =>
    unfold processSample processTracking
    simp only [averageAfter_of_ne_follower h delta]

/-! ### A missed sample (R132) -/

theorem Channel.missedAgain_at_limit (h : ch.missed = c.staleLimit) : ch.missedAgain c = { ch with change := 0 } := by
  simp only [Channel.missedAgain, if_pos h]

theorem Channel.missedAgain_below_limit (h : ch.missed ≠ c.staleLimit) :
    ch.missedAgain c = { ch with change := 0, missed := ch.missed + 1 } := by
  simp only [Channel.missedAgain, if_neg h]

theorem Channel.reachesLimit_iff : ch.reachesLimit c = true ↔
    (ch.state = .tracking ∨ ch.state = .seeding) ∧ ch.missed + 1 = c.staleLimit := by
  simp only [Channel.reachesLimit, Bool.and_eq_true, Bool.or_eq_true, decide_eq_true_eq]
  constructor
  · exact fun ⟨⟨polled, _⟩, next⟩ => ⟨polled, next⟩
  · exact fun ⟨polled, next⟩ => ⟨⟨polled, by omega⟩, next⟩

theorem processMissed_at_limit (h : ch.missed = c.staleLimit) : processMissed c ch = { ch with change := 0 } := by
  have before : ¬ ch.reachesLimit c = true := fun reaches => by
    have := (Channel.reachesLimit_iff.mp reaches).2
    omega
  exact (if_neg before).trans (Channel.missedAgain_at_limit h)

theorem processMissed_below_limit (h : ch.missed + 1 < c.staleLimit) :
    processMissed c ch = { ch with change := 0, missed := ch.missed + 1 } := by
  have before : ¬ ch.reachesLimit c = true := fun reaches => by
    have := (Channel.reachesLimit_iff.mp reaches).2
    omega
  exact (if_neg before).trans (Channel.missedAgain_below_limit (by omega))

theorem processMissed_reaches_limit (h : ch.missed + 1 = c.staleLimit)
    (polled : ch.state = .tracking ∨ ch.state = .seeding) :
    processMissed c ch = { ch with
      change := 0, missed := ch.missed + 1, level := .unknown
      state := if ch.state = .tracking then .stale else ch.state } := by
  unfold processMissed
  rw [if_pos (Channel.reachesLimit_iff.mpr ⟨polled, h⟩), Channel.missedAgain_below_limit (by omega)]

end

end Sys2Proof.Machine
end

section

open Sys2Proof Sys2Proof.Machine

/-- Settles O50: `processTracking_cases` gives the values of the eight steps, and a lemma per branch says each value. -/
theorem samplesAreProcessedByTheEightSteps : Obligations.SamplesAreProcessedByTheEightSteps := by
  intro c ch count delta _ sample restarted
  refine ⟨fun seeding => processSample_seeding seeding count delta, fun stale => processSample_stale stale count delta,
    ⟨rfl, processMissed_at_limit, processMissed_below_limit, fun limit tracking => ?_, fun limit seeding => ?_⟩, ?_⟩
  · exact (processMissed_reaches_limit limit (.inl tracking)).trans (by rw [if_pos tracking])
  · exact (processMissed_reaches_limit limit (.inr seeding)).trans (by rw [if_neg (by simp [seeding])])
  intro tracking _
  rw [processSample_tracking tracking]
  obtain ⟨level, debounce, average, change, plateau, levels, averages, counts, reseeds, stays, restarts⟩ :=
    processTracking_cases c ch count delta
  intro after reseeded f d activation isCrowded isBusy holdsCrowded holdsBusy
  have crowdedHeld : crowdedHolds c f d = true ↔ holdsCrowded := crowdedHolds_iff
  have busyHeld : busyHolds c d = true ↔ holdsBusy := busyHolds_iff
  change levelAndDebounce c f d ch.level ch.debounce = (level, debounce) at levels
  refine ⟨level, debounce, average, change, plateau, fun crowded => ?_, fun busy drops => ?_, fun rises => ?_,
    fun keeps => ?_, fun clear => ?_, fun away => ?_, fun off => ?_, fun away on => ?_, reseeds, stays, restarts⟩
  · rw [crowded, levelAndDebounce_crowded] at levels
    obtain ⟨rfl, rfl⟩ := Prod.mk.inj levels
    refine ⟨fun holds => ⟨if_pos (crowdedHeld.mpr holds), rfl⟩, fun fails => ?_⟩
    rw [if_neg (mt crowdedHeld.mp fails)]
    exact ⟨rfl, fun holds => if_pos (busyHeld.mpr holds), fun fails => if_neg (mt busyHeld.mp fails)⟩
  · rw [busy, levelAndDebounce_busy_drop (mt busyHeld.mp drops)] at levels
    obtain ⟨rfl, rfl⟩ := Prod.mk.inj levels
    exact ⟨rfl, rfl⟩
  · have held : levelHeld c f d ch.level = ch.level :=
      levelHeld_self (rises.imp (fun ⟨busy, holds, _⟩ => ⟨busy, busyHeld.mpr holds⟩) And.left)
    have above : (candidateLevel c f d).above ch.level = true := by
      rcases rises with ⟨busy, _, crowded⟩ | ⟨clear, candidate⟩
      · exact busy ▸ candidateLevel_above_busy_iff.mpr crowded
      · exact clear ▸ candidateLevel_above_clear_iff.mpr candidate
    rw [levelAndDebounce_of_held held, if_pos above] at levels
    refine ⟨fun last => ?_, fun more => ?_⟩
    · rw [if_pos last] at levels
      obtain ⟨rfl, rfl⟩ := Prod.mk.inj levels
      exact ⟨rfl, candidateLevel_eq_crowded_iff.mpr, candidateLevel_eq_busy_iff.mpr⟩
    · rw [if_neg more] at levels
      obtain ⟨rfl, rfl⟩ := Prod.mk.inj levels
      exact ⟨rfl, rfl⟩
  · have held : levelHeld c f d ch.level = ch.level :=
      levelHeld_self (keeps.imp (fun ⟨busy, holds, _⟩ => ⟨busy, busyHeld.mpr holds⟩) And.left)
    have below : ¬ (candidateLevel c f d).above ch.level = true := by
      rcases keeps with ⟨busy, _, notCrowded⟩ | ⟨clear, notBusy, notCrowded⟩
      · exact busy ▸ mt candidateLevel_above_busy_iff.mp notCrowded
      · exact clear ▸ mt candidateLevel_above_clear_iff.mp (not_or.mpr ⟨notBusy, notCrowded⟩)
    rw [levelAndDebounce_of_held held, if_neg below] at levels
    obtain ⟨rfl, rfl⟩ := Prod.mk.inj levels
    exact ⟨rfl, rfl⟩
  · subst clear
    rw [averageAfter_clear] at averages
    obtain ⟨rfl, rfl⟩ := Prod.mk.inj averages
    exact ⟨rfl, rfl⟩
  · rw [averageAfter_of_ne_clear away] at averages
    obtain ⟨rfl, rfl⟩ := Prod.mk.inj averages
    exact ⟨rfl, fun other => if_neg other, fun follower => if_pos follower⟩
  · exact counts.symm.trans (plateauAfter_zero off _ _)
  · rw [plateauAfter_counts away on] at counts
    subst counts
    have band : ((f - activation).natAbs : Int) < 16 * c.settleBand ↔ (f - activation).natAbs < 16 * c.settleBand := by
      omega
    exact ⟨fun near => if_pos (band.mp near), fun far => if_neg (mt band.mpr (not_lt.mpr far))⟩

end

section
/-! SUPPORT. The poll cycle (R119 to R122): its start, its samples, and what the processing of the samples leaves of the
channels and of the notices (R129, R134). -/

namespace Sys2Proof.Machine

section

variable {s : State}

/-! ### The sample timer (R119, R120) -/

theorem State.mem_polledChannels {c : Nat} : c ∈ s.polledChannels ↔ c < 64 ∧ (s.channel c).state ≠ .off := by
  simp [State.polledChannels, Config.channels]

theorem State.polledChannels_ascending (s : State) : s.polledChannels.Pairwise (· < ·) :=
  List.pairwise_lt_range.filter _

theorem State.polledChannels_eq_nil (h : ∀ c, c < 64 → (s.channel c).state = .off) : s.polledChannels = [] :=
  List.eq_nil_iff_forall_not_mem.mpr fun c polled =>
    (State.mem_polledChannels.mp polled).2 (h c (State.mem_polledChannels.mp polled).1)

/-- R120: the polled channel of lowest number comes first. -/
theorem State.polledChannels_eq_cons {c : Nat} (within : c < 64) (polled : (s.channel c).state ≠ .off)
    (lowest : ∀ d, d < c → (s.channel d).state = .off) :
    ∃ rest, s.polledChannels = c :: rest ∧
      (∀ d, d ∈ rest ↔ c < d ∧ d < 64 ∧ (s.channel d).state ≠ .off) ∧ rest.Pairwise (· < ·) := by
  have listed := State.mem_polledChannels.mpr ⟨within, polled⟩
  have ascending := s.polledChannels_ascending
  have members (d : Nat) : d ∈ s.polledChannels ↔ d < 64 ∧ (s.channel d).state ≠ .off := State.mem_polledChannels
  generalize s.polledChannels = channels at listed ascending members ⊢
  cases channels with
  | nil => nomatch listed
  | cons first rest =>
    obtain ⟨above, ascending⟩ := List.pairwise_cons.mp ascending
    have first_eq : first = c := by
      rcases List.mem_cons.mp listed with same | later
      · exact same.symm
      · exact absurd (lowest first (above c later)) ((members first).mp (List.mem_cons_self ..)).2
    subst first_eq
    refine ⟨rest, rfl, fun d => ⟨fun later => ⟨above d later, (members d).mp (List.mem_cons_of_mem _ later)⟩,
      fun ⟨later, on⟩ => ?_⟩, ascending⟩
    exact (List.mem_cons.mp ((members d).mpr on)).resolve_left (Nat.ne_of_gt later)

theorem exec_sampleTimerExpiry (running : s.Running) : exec .sampleTimerExpiry s = .next s.sampleTimerExpiry :=
  congrArg _ (State.event_of_running running _)

theorem State.sampleTimerExpiry_stopped (h : s.flow.timer = none) : s.sampleTimerExpiry = s := by
  simp only [State.sampleTimerExpiry, h]

theorem State.sampleTimerExpiry_restarts {length : Nat} (timer : s.flow.timer = some length)
    (h : s.flow.cycle ≠ none ∨ s.polledChannels = []) : s.sampleTimerExpiry = s.startSampleTimer := by
  have same : s.startSampleTimer.polledChannels = s.polledChannels := rfl
  have cycle : s.startSampleTimer.flow.cycle = s.flow.cycle := rfl
  unfold State.sampleTimerExpiry
  simp only [timer, same, cycle]
  split
  next idle list => exact absurd h (by simp [idle, list])
  next => rfl

theorem State.sampleTimerExpiry_begins {length first : Nat} {rest : List Nat} (timer : s.flow.timer = some length)
    (idle : s.flow.cycle = none) (polled : s.polledChannels = first :: rest) : s.sampleTimerExpiry =
      s.startSampleTimer.setCycle (some { current := first, phase := .sending, rest := rest, samples := [] }) := by
  have same : s.startSampleTimer.polledChannels = s.polledChannels := rfl
  have cycle : s.startSampleTimer.flow.cycle = s.flow.cycle := rfl
  unfold State.sampleTimerExpiry
  simp only [timer, same, cycle, idle, polled]

/-! ### The samples of a cycle (R120, R121) -/

theorem exec_pollSent (running : s.Running) {cycle : PollCycle} (polling : s.flow.cycle = some cycle)
    (sending : cycle.phase = .sending) :
    exec .pollSent s = .next (s.setCycle (some { cycle with phase := .listening })) := by
  change Host.Outcome.next (s.event _) = _
  rw [State.event_of_running running]
  simp only [State.pollSent, polling, sending, if_true]

/-- R121, R179: the reply is good that comes whole from the channel polled with a count in range. -/
theorem replySample_eq (c : Nat) (b0 b1 b2 b3 b4 : Byte) : replySample c b0 b1 b2 b3 b4 =
    if b0 = 0x5B ∧ (b0.toNat + b1.toNat + b2.toNat + b3.toNat + b4.toNat) % 256 = 0 ∧ b1.toNat = c ∧
      b2.toNat + 256 * b3.toNat ≤ 1023 then some (b2.toNat + 256 * b3.toNat) else none := by
  have count : ofLe [b2, b3] = b2.toNat + 256 * b3.toNat := by simp [ofLe]
  have sum : b0 + b1 + b2 + b3 + b4 = 0 ↔ (b0.toNat + b1.toNat + b2.toNat + b3.toNat + b4.toNat) % 256 = 0 := by
    rw [← BitVec.toNat_inj]
    simp [BitVec.toNat_add]
  simp only [replySample, count, Bool.and_eq_true, decide_eq_true_eq, sum, and_assoc]

theorem exec_counterReply (running : s.Running) (b0 b1 b2 b3 b4 : Byte) : exec (.counterReply b0 b1 b2 b3 b4) s =
    .next (s.judgeSample fun cycle => replySample cycle.current b0 b1 b2 b3 b4) :=
  congrArg _ (State.event_of_running running _)

theorem exec_replyTimeout (running : s.Running) : exec .replyTimeout s = .next (s.judgeSample fun _ => none) :=
  congrArg _ (State.event_of_running running _)

theorem State.judgeSample_next {cycle : PollCycle} {next : Nat} {rest : List Nat} {sample : PollCycle → Option Nat}
    (polling : s.flow.cycle = some cycle) (listening : cycle.phase = .listening) (more : cycle.rest = next :: rest) :
    s.judgeSample sample = s.setCycle (some
      { current := next, phase := .sending, rest := rest
        samples := cycle.samples ++ [(cycle.current, sample cycle)] }) := by
  simp only [State.judgeSample, polling, listening, if_true, more]

theorem State.judgeSample_last {cycle : PollCycle} {sample : PollCycle → Option Nat}
    (polling : s.flow.cycle = some cycle) (listening : cycle.phase = .listening) (last : cycle.rest = []) :
    s.judgeSample sample =
      (s.setCycle none).processCycle (cycle.samples ++ [(cycle.current, sample cycle)]) := by
  simp only [State.judgeSample, polling, listening, if_true, last]

end

/-! ### The processing of a list of samples (R122, R129, R134) -/

section

/-- R129: the change of L that a channel's processing takes from its reference, as a state holds it. -/
def State.referenceChange (t : State) (c : ChannelConfig) : Int :=
  if c.role = .follower then (t.channel c.reference).change else 0

/-- What a sample makes of its channel as `s` holds it, under the reference changes that `t` holds. -/
def State.outcome (s t : State) (x : Nat × Option Nat) : Processed :=
  processSample (s.channelConfig x.1) (s.channel x.1) x.2 (t.referenceChange (s.channelConfig x.1))

/-- R122: a sample of a REFERENCE channel has none of another role before it. -/
def SiteStore.ReferencesFirst (site : SiteStore) (samples : List (Nat × Option Nat)) : Prop :=
  samples.Pairwise fun x y => (Table.get .cleared site.channels y.1).role = .reference →
    (Table.get .cleared site.channels x.1).role = .reference

variable {s : State} {x : Nat × Option Nat} {samples : List (Nat × Option Nat)}

theorem State.referenceChange_of_ne_follower {t : State} {c : ChannelConfig} (h : c.role ≠ .follower) :
    t.referenceChange c = 0 := if_neg h

theorem State.referenceChange_follower {t : State} {c : ChannelConfig} (h : c.role = .follower) :
    t.referenceChange c = (t.channel c.reference).change := if_pos h

theorem State.foldl_offer (s : State) (notices : List Notice) :
    notices.foldl State.offer s = { s with link := s.link.offerAll notices } := by
  induction notices generalizing s with
  | nil => rfl
  | cons n rest ih => exact ih (s.offer n)

/-- R122, R134: a channel's sample writes the channel and offers its notices. -/
theorem State.processChannel_eq (s : State) (x : Nat × Option Nat) : s.processChannel x =
    { s.setChannel x.1 (s.outcome s x).channel with
      link := s.link.offerAll (flowNotices x.1 (s.channel x.1) (s.outcome s x)) } := by
  have change : processSample (s.channelConfig x.1) (s.channel x.1) x.2
      (s.channel (s.channelConfig x.1).reference).change = s.outcome s x := by
    unfold State.outcome
    by_cases follower : (s.channelConfig x.1).role = .follower
    · rw [State.referenceChange_follower follower]
    · rw [State.referenceChange_of_ne_follower follower]
      exact processSample_of_ne_follower follower _ _
  unfold State.processChannel
  simp only [change, State.foldl_offer]
  rfl

theorem State.processChannel_channel_self (h : Table.wf .cleared s.flow.channels = true) (x : Nat × Option Nat) :
    (s.processChannel x).channel x.1 = (s.outcome s x).channel := by
  rw [State.processChannel_eq]
  exact Table.get_set_self _ h _ _

theorem State.processChannel_channel_of_ne (x : Nat × Option Nat) {i : Nat} (h : i ≠ x.1) :
    (s.processChannel x).channel i = s.channel i := by
  rw [State.processChannel_eq]
  exact Table.get_set_of_ne _ _ _ h

theorem State.processChannel_wf (h : Table.wf .cleared s.flow.channels = true) (x : Nat × Option Nat) :
    Table.wf .cleared (s.processChannel x).flow.channels = true := by
  rw [State.processChannel_eq]
  exact Table.wf_set _ h _ _

/-- The processing of samples writes channels and offers notices. -/
theorem State.foldl_processChannel_frame (s : State) (samples : List (Nat × Option Nat)) :
    ∃ channels notices, samples.foldl State.processChannel s =
      { s with flow := { s.flow with channels := channels }, link := s.link.offerAll notices } := by
  induction samples generalizing s with
  | nil => exact ⟨_, [], rfl⟩
  | cons x rest ih =>
    obtain ⟨channels, notices, eq⟩ := ih (s.processChannel x)
    refine ⟨channels, flowNotices x.1 (s.channel x.1) (s.outcome s x) ++ notices, ?_⟩
    rw [List.foldl_cons, eq, State.processChannel_eq, ← HostLink.offerAll_append]
    rfl

theorem State.foldl_processChannel_channel_of_not_mem {i : Nat} (h : i ∉ samples.map Prod.fst) :
    (samples.foldl State.processChannel s).channel i = s.channel i := by
  induction samples generalizing s with
  | nil => rfl
  | cons x rest ih =>
    obtain ⟨other, later⟩ := not_or.mp (mt List.mem_cons.mpr h)
    rw [List.foldl_cons, ih later, State.processChannel_channel_of_ne x other]

/-- R122, R129: the first sample's reference change is final when it is processed: its reference is not written again. -/
theorem State.outcome_head_final (first : s.site.ReferencesFirst (x :: samples))
    (named : (s.channelConfig x.1).role = .follower →
      (s.channelConfig (s.channelConfig x.1).reference).role = .reference) :
    s.outcome s x = s.outcome ((x :: samples).foldl State.processChannel s) x := by
  by_cases follower : (s.channelConfig x.1).role = .follower
  · have unwritten : (s.channelConfig x.1).reference ∉ (x :: samples).map Prod.fst := fun written => by
      have reference := named follower
      rcases List.mem_cons.mp written with same | later
      · rw [same, follower] at reference
        cases reference
      · obtain ⟨y, listed, same⟩ := List.mem_map.mp later
        have role := (List.pairwise_cons.mp first).1 y listed (same ▸ reference)
        exact nomatch follower.symm.trans role
    simp only [State.outcome, State.referenceChange_follower follower,
      State.foldl_processChannel_channel_of_not_mem unwritten]
  · simp only [State.outcome, State.referenceChange_of_ne_follower follower]

/-- A sample's outcome does not change when another channel's is processed before it. -/
theorem State.processChannel_outcome {y : Nat × Option Nat} (t : State) (h : y.1 ≠ x.1) :
    (s.processChannel x).outcome t y = s.outcome t y := by
  have config : (s.processChannel x).channelConfig y.1 = s.channelConfig y.1 := by
    unfold State.channelConfig
    rw [State.processChannel_site]
  unfold State.outcome
  rw [config, State.processChannel_channel_of_ne x h]

/-- R122, R129: each channel ends as its sample makes of it, under the changes that its references end with. -/
theorem State.foldl_processChannel_channel (wf : Table.wf .cleared s.flow.channels = true)
    (once : (samples.map Prod.fst).Nodup) (first : s.site.ReferencesFirst samples) (listed : x ∈ samples)
    (named : (s.channelConfig x.1).role = .follower →
      (s.channelConfig (s.channelConfig x.1).reference).role = .reference) :
    (samples.foldl State.processChannel s).channel x.1 =
      (s.outcome (samples.foldl State.processChannel s) x).channel := by
  induction samples generalizing s with
  | nil => nomatch listed
  | cons y rest ih =>
    obtain ⟨notLater, once⟩ := List.nodup_cons.mp once
    rcases List.mem_cons.mp listed with rfl | later
    · rw [← State.outcome_head_final first named, List.foldl_cons,
        State.foldl_processChannel_channel_of_not_mem notLater, State.processChannel_channel_self wf]
    · have other : x.1 ≠ y.1 := fun same => notLater (same ▸ List.mem_map_of_mem later)
      have same := s.processChannel_site y
      have next := ih (s := s.processChannel y) (State.processChannel_wf wf y) once (same ▸ first.of_cons) later
        (by unfold State.channelConfig; rw [same]; exact named)
      rw [List.foldl_cons, next, State.processChannel_outcome _ other]

/-- R122, R134: the notices of each sample's outcome are offered in the order of the samples. -/
theorem State.foldl_processChannel_link (once : (samples.map Prod.fst).Nodup)
    (first : s.site.ReferencesFirst samples)
    (named : ∀ x ∈ samples, (s.channelConfig x.1).role = .follower →
      (s.channelConfig (s.channelConfig x.1).reference).role = .reference) :
    (samples.foldl State.processChannel s).link = s.link.offerAll (samples.flatMap fun x =>
      flowNotices x.1 (s.channel x.1) (s.outcome (samples.foldl State.processChannel s) x)) := by
  induction samples generalizing s with
  | nil => rfl
  | cons x rest ih =>
    obtain ⟨notLater, once⟩ := List.nodup_cons.mp once
    have same := s.processChannel_site x
    have next := ih (s := s.processChannel x) once (same ▸ first.of_cons)
      (by unfold State.channelConfig; rw [same]; exact fun y later => named y (List.mem_cons_of_mem _ later))
    have kept (y) (later : y ∈ rest) : flowNotices y.1 ((s.processChannel x).channel y.1)
        ((s.processChannel x).outcome (rest.foldl State.processChannel (s.processChannel x)) y) =
        flowNotices y.1 (s.channel y.1) (s.outcome ((x :: rest).foldl State.processChannel s) y) := by
      have other : y.1 ≠ x.1 := fun same => notLater (same ▸ List.mem_map_of_mem later)
      rw [State.processChannel_outcome _ other, State.processChannel_channel_of_ne x other, List.foldl_cons]
    have own : (s.processChannel x).link = s.link.offerAll (flowNotices x.1 (s.channel x.1) (s.outcome s x)) := by
      rw [State.processChannel_eq]
    rw [List.foldl_cons, next, List.flatMap_congr kept, own, HostLink.offerAll_append,
      State.outcome_head_final first (named x (List.mem_cons_self ..))]
    rfl

end

/-! ### The end of a cycle (R122) -/

section

variable {s : State} {samples : List (Nat × Option Nat)}

/-- R122: the samples in the order of their processing. -/
def State.processingOrder (s : State) (samples : List (Nat × Option Nat)) : List (Nat × Option Nat) :=
  (samples.filter fun x => (s.channelConfig x.1).role = .reference) ++
    samples.filter fun x => (s.channelConfig x.1).role ≠ .reference

theorem State.processCycle_eq (s : State) (samples : List (Nat × Option Nat)) :
    s.processCycle samples = (s.processingOrder samples).foldl State.processChannel s := by
  simp only [State.processCycle, State.processingOrder, decide_not]

theorem State.processingOrder_perm (s : State) (samples : List (Nat × Option Nat)) :
    (s.processingOrder samples).Perm samples := by
  simp only [State.processingOrder, ne_eq, decide_not]
  exact List.filter_append_perm _ _

theorem State.mem_processingOrder {x : Nat × Option Nat} : x ∈ s.processingOrder samples ↔ x ∈ samples :=
  (s.processingOrder_perm samples).mem_iff

theorem State.processingOrder_referencesFirst (s : State) (samples : List (Nat × Option Nat)) :
    s.site.ReferencesFirst (s.processingOrder samples) := by
  have references : ∀ x ∈ samples.filter fun x => (s.channelConfig x.1).role = .reference,
      (s.channelConfig x.1).role = .reference := fun x listed => by simpa using (List.mem_filter.mp listed).2
  have others : ∀ x ∈ samples.filter fun x => (s.channelConfig x.1).role ≠ .reference,
      (s.channelConfig x.1).role ≠ .reference := fun x listed => by simpa using (List.mem_filter.mp listed).2
  refine List.pairwise_append.mpr ⟨?_, ?_, fun x before _ _ _ => references x before⟩
  · exact List.pairwise_of_forall_mem_list fun x before _ _ _ => references x before
  · exact List.pairwise_of_forall_mem_list fun _ _ y after role => absurd role (others y after)

theorem State.processCycle_frame (s : State) (samples : List (Nat × Option Nat)) :
    ∃ channels notices, s.processCycle samples =
      { s with flow := { s.flow with channels := channels }, link := s.link.offerAll notices } := by
  rw [State.processCycle_eq]
  exact s.foldl_processChannel_frame _

theorem State.processCycle_channel_of_not_polled {i : Nat} (h : ∀ x ∈ samples, x.1 ≠ i) :
    (s.processCycle samples).channel i = s.channel i := by
  rw [State.processCycle_eq]
  refine State.foldl_processChannel_channel_of_not_mem fun written => ?_
  obtain ⟨x, listed, same⟩ := List.mem_map.mp written
  exact h x (State.mem_processingOrder.mp listed) same

theorem State.processingOrder_nodup (s : State) (once : (samples.map Prod.fst).Nodup) :
    ((s.processingOrder samples).map Prod.fst).Nodup :=
  ((s.processingOrder_perm samples).map Prod.fst).nodup_iff.mpr once

/-- R122, R129: each polled channel ends as its sample makes of it, under the change that its reference ends with. -/
theorem State.processCycle_channel (wf : Table.wf .cleared s.flow.channels = true)
    (once : (samples.map Prod.fst).Nodup) {x : Nat × Option Nat} (polled : x ∈ samples)
    (named : (s.channelConfig x.1).role = .follower →
      (s.channelConfig (s.channelConfig x.1).reference).role = .reference) :
    (s.processCycle samples).channel x.1 = (s.outcome (s.processCycle samples) x).channel := by
  rw [State.processCycle_eq]
  exact State.foldl_processChannel_channel wf (s.processingOrder_nodup once) (s.processingOrder_referencesFirst samples)
    (State.mem_processingOrder.mpr polled) named

/-- R129: a channel that is no FOLLOWER takes no reference change. -/
theorem State.processCycle_channel_of_ne_follower (wf : Table.wf .cleared s.flow.channels = true)
    (once : (samples.map Prod.fst).Nodup) {x : Nat × Option Nat} (polled : x ∈ samples)
    (other : (s.channelConfig x.1).role ≠ .follower) : (s.processCycle samples).channel x.1 =
      (processSample (s.channelConfig x.1) (s.channel x.1) x.2 0).channel := by
  rw [State.processCycle_channel wf once polled fun follower => absurd follower other, State.outcome,
    State.referenceChange_of_ne_follower other]

/-- R129: a FOLLOWER takes the change that its reference ends with. -/
theorem State.processCycle_channel_of_follower (wf : Table.wf .cleared s.flow.channels = true)
    (once : (samples.map Prod.fst).Nodup) {x : Nat × Option Nat} (polled : x ∈ samples)
    (follower : (s.channelConfig x.1).role = .follower)
    (named : (s.channelConfig (s.channelConfig x.1).reference).role = .reference) :
    (s.processCycle samples).channel x.1 = (processSample (s.channelConfig x.1) (s.channel x.1) x.2
      ((s.processCycle samples).channel (s.channelConfig x.1).reference).change).channel := by
  rw [State.processCycle_channel wf once polled fun _ => named, State.outcome,
    State.referenceChange_follower follower]

/-- R122, R134: the notices of the samples are offered in the order of their processing. -/
theorem State.processCycle_link (once : (samples.map Prod.fst).Nodup)
    (named : ∀ x ∈ samples, (s.channelConfig x.1).role = .follower →
      (s.channelConfig (s.channelConfig x.1).reference).role = .reference) :
    (s.processCycle samples).link = s.link.offerAll ((s.processingOrder samples).flatMap fun x =>
      flowNotices x.1 (s.channel x.1) (s.outcome (s.processCycle samples) x)) := by
  rw [State.processCycle_eq]
  exact State.foldl_processChannel_link (s.processingOrder_nodup once) (s.processingOrder_referencesFirst samples)
    fun x listed => named x (State.mem_processingOrder.mp listed)

/-- R134: the notices of a channel's processing, in their order. -/
theorem flowNotices_eq (i : Nat) (before : Channel) (after : Processed) : flowNotices i before after =
    (if after.channel.level = .unknown ∧ before.level ≠ .unknown then
      [Notice.flowStale i before.level after.channel.missed] else []) ++
    (if after.reseeded = true then [Notice.flowReseed i after.channel.average after.channel.level] else []) ++
    (if after.channel.level ≠ before.level ∧ after.channel.level ≠ .unknown then
      [Notice.flowLevel i before.level after.channel.level] else []) := by
  simp only [flowNotices, Bool.and_eq_true, decide_eq_true_eq]

end

end Sys2Proof.Machine
end

section

open Sys2Proof Sys2Proof.Machine

/-- Settles O49: the cycle's end processes the samples in `State.processingOrder`, in which every channel and its notices
follow the change that its reference ends with. -/
theorem pollCyclesTakeEveryChannel : Obligations.PollCyclesTakeEveryChannel := by
  intro s running
  rw [exec_sampleTimerExpiry running]
  refine ⟨fun stopped => congrArg _ (State.sampleTimerExpiry_stopped stopped),
    fun length timer polling => congrArg _ (State.sampleTimerExpiry_restarts timer (.inl polling)),
    fun length timer idle => ⟨fun off => ?_, fun c within polled lowest => ?_⟩,
    fun cycle polling sending => exec_pollSent running polling sending,
    fun cycle polling listening reply sample replied missed => ?_⟩
  · exact congrArg _ (State.sampleTimerExpiry_restarts timer (.inr (State.polledChannels_eq_nil off)))
  · obtain ⟨rest, list, members, ascending⟩ := State.polledChannels_eq_cons within polled lowest
    rw [State.sampleTimerExpiry_begins timer idle list]
    have clde : (s.startSampleTimer.setCycle (some
        { current := c, phase := .sending, rest := rest, samples := [] })).clde = true :=
      Bool.and_eq_true_iff.mpr ⟨(State.running_iff s).mpr running, rfl⟩
    exact ⟨_, rest, rfl, members, ascending, rfl, clde⟩
  intro c samples
  obtain ⟨judge, judged, run⟩ : ∃ judge, judge cycle = sample ∧ exec c s = .next (s.judgeSample judge) := by
    rcases reply with _ | ⟨b0, b1, b2, b3, b4⟩
    · exact ⟨_, (missed rfl).symm, exec_replyTimeout running⟩
    · obtain ⟨good, bad⟩ := replied b0 b1 b2 b3 b4 rfl
      refine ⟨_, ?_, exec_counterReply running b0 b1 b2 b3 b4⟩
      rw [replySample_eq]
      split
      next whole => exact (good whole).symm
      next broken => exact (bad broken).symm
  rw [run]
  subst judged
  refine ⟨fun next rest more => congrArg _ (State.judgeSample_next polling listening more),
    fun last once canonical => ?_⟩
  rw [State.judgeSample_last polling listening last]
  change (samples.map Prod.fst).Nodup at once
  let ended := s.setCycle none
  have wf : Table.wf .cleared ended.flow.channels = true := canonical.channels
  obtain ⟨channels, offered, frame⟩ := ended.processCycle_frame samples
  obtain ⟨queue, mark, count, link⟩ := ended.link.offerAll_frame offered
  refine ⟨_, rfl, by rw [frame]; rfl, by rw [frame]; rfl,
    fun i others => State.processCycle_channel_of_not_polled (s := ended) others,
    fun i x polled role => ?_, fun i x polled role => ?_, fun i x polled role named => ?_, fun named => ?_, ?_⟩
  · exact State.processCycle_channel_of_ne_follower wf once polled (ne_of_eq_of_ne role (by decide))
  · exact State.processCycle_channel_of_ne_follower wf once polled (ne_of_eq_of_ne role (by decide))
  · exact State.processCycle_channel_of_follower wf once polled role named
  · refine (State.processCycle_link (s := ended) once named).trans (congrArg s.link.offerAll ?_)
    refine List.flatMap_congr fun x listed => ?_
    have polled := State.mem_processingOrder.mp listed
    rw [flowNotices_eq, ← State.processCycle_channel wf once polled (named x polled)]
    rfl
  · rw [frame, link]
    rfl

end

section
/-! SUPPORT. The tick of the mall clock (R138). -/

namespace Sys2Proof.Machine

section

variable {u : ScheduleUnit}

theorem ScheduleUnit.ticked_unset (unset : u.clockSet = false) : u.ticked = u := by
  simp only [ScheduleUnit.ticked, unset, Bool.false_eq_true, if_false]

theorem ScheduleUnit.ticked_withinDay (clock : u.clockSet = true) (within : u.second < 86399) : u.ticked =
    { u with second := u.second + 1, boundaryDue := u.boundaryDue || (u.second + 1) % 60 == 0 } := by
  have second : nextSecond u.second = u.second + 1 := if_neg (Nat.not_le.mpr within)
  have day : nextDay u.second u.day = u.day := if_neg (Nat.not_le.mpr within)
  simp only [ScheduleUnit.ticked, clock, if_true, second, day]
  rfl

theorem ScheduleUnit.ticked_midnight (clock : u.clockSet = true) (last : u.second = 86399) :
    u.ticked = { u with second := 0, day := (u.day + 1) % 7, boundaryDue := true } := by
  have second : nextSecond u.second = 0 := if_pos last.ge
  have day : nextDay u.second u.day = (u.day + 1) % 7 := if_pos last.ge
  simp only [ScheduleUnit.ticked, clock, if_true, second, day, Nat.zero_mod, decide_true, Bool.or_true]

end

theorem exec_tick {s : State} (running : s.Running) :
    exec .tick s = .next { s with schedule := s.schedule.ticked } := by
  change Host.Outcome.next (s.event _) = _
  rw [State.event_of_running running]

end Sys2Proof.Machine
end

section

open Sys2Proof Sys2Proof.Machine

/-- Settles O34: a tick writes `ScheduleUnit.ticked`. -/
theorem tickAdvancesTheClock : Obligations.TickAdvancesTheClock := by
  intro s running
  rw [exec_tick running]
  refine ⟨fun unset => ?_, fun clock within => ?_, fun clock last => ?_⟩
  · rw [ScheduleUnit.ticked_unset unset]
  · rw [ScheduleUnit.ticked_withinDay clock within]
  · rw [ScheduleUnit.ticked_midnight clock last]

end

section
/-! SUPPORT. SET CLOCK: its checks, its catch-up and the turn it asks for (R139, R144, R145). -/

namespace Sys2Proof.Machine

/-- The state in which SET CLOCK's catch-up has been made and its turn asked for (R145). -/
def State.clockWritten (s : State) (second day : Nat) : State :=
  (s.writeClock second day).catchUp.askTurn .schedule

section

variable {s : State} {second day : Nat} {kept : List Nat}

/-! ### The survivors of a catch-up (R144) -/

/-- R144 item 3: no two survivors are for one target. -/
theorem State.Survivors.targets (h : s.Survivors kept) :
    kept.Pairwise fun i j => (s.scheduleEntry j).target ≠ (s.scheduleEntry i).target :=
  h.order.imp_of_mem fun hi hj before => ((h.members _).mp hi).2 _ ((h.members _).mp hj).1 before

theorem State.Survivors.nodup (h : s.Survivors kept) : kept.Nodup :=
  h.targets.imp fun differ same => differ (by rw [same])

/-- With no LATE entry, the survivors are the latest of the entries due so far today, by minute and then by index. -/
theorem State.Survivors.mem_iff_of_noneLate (h : s.Survivors kept) (noneLate : s.schedule.late = []) (i : Nat) :
    i ∈ kept ↔ s.DueSoFar i ∧
      ∀ j, s.DueSoFar j → s.DueBefore i j → (s.scheduleEntry j).target ≠ (s.scheduleEntry i).target := by
  simp only [h.members, noneLate, List.not_mem_nil, false_or]
  refine and_congr_right fun due => forall₂_congr fun j later => imp_congr_left ?_
  exact ⟨fun before => before.elim (fun ⟨early, _⟩ => absurd due early) fun ⟨_, _, order⟩ => order,
    fun order => .inr ⟨due, later, order⟩⟩

/-- With no LATE entry, the survivors are entries of the site. -/
theorem State.Survivors.length_le (h : s.Survivors kept) (noneLate : s.schedule.late = []) :
    kept.length ≤ s.site.header.scheduleCount := by
  have within : kept ⊆ List.range s.site.header.scheduleCount := fun i listed => by
    obtain ⟨⟨⟨below, -⟩, -⟩, -⟩ := (h.mem_iff_of_noneLate noneLate i).mp listed
    exact List.mem_range.mpr below
  simpa using (h.nodup.subperm within).length_le

/-- R105: entries for different targets all stand in the list they are placed into. -/
theorem State.mem_putEntries_nil {entries : List Nat}
    (apart : entries.Pairwise fun i j => (s.scheduleEntry j).target ≠ (s.scheduleEntry i).target) (x : Edit) :
    x ∈ s.putEntries entries [] ↔ ∃ i ∈ entries, x = s.scheduleEdit i := by
  rw [State.mem_putEntries]
  constructor
  · rintro (⟨held, -⟩ | ⟨before, i, after, rfl, -, rfl⟩)
    · cases held
    · exact ⟨i, by simp, rfl⟩
  · rintro ⟨i, listed, rfl⟩
    obtain ⟨before, after, rfl⟩ := List.append_of_mem listed
    obtain ⟨-, behind, -⟩ := List.pairwise_append.mp apart
    exact .inr ⟨before, i, after, rfl, fun j => List.rel_of_pairwise_cons behind, rfl⟩

/-! ### The catch-up (R144) -/

theorem State.catchUp_eq (s : State) :
    s.catchUp = (s.setLate []).offerEntries (s.lastPerTarget s.catchUpCandidates) := rfl

/-- R144: with room for all of them, the survivors fill an empty pending list. -/
theorem State.catchUp_of_room (valid : s.site.state = .valid) (empty : s.conditions.edits = [])
    (h : s.Survivors (s.lastPerTarget s.catchUpCandidates)) (noneLate : s.schedule.late = [])
    (room : s.site.header.scheduleCount ≤ 64) :
    s.catchUp = (s.setEdits (s.putEntries (s.lastPerTarget s.catchUpCandidates) [])).setLate [] := by
  have fits : (s.setLate []).conditions.edits.length + (s.lastPerTarget s.catchUpCandidates).length ≤ 64 := by
    rw [State.setLate_conditions, empty, List.length_nil, Nat.zero_add]
    exact (h.length_le noneLate).trans room
  rw [State.catchUp_eq, State.offerEntries_of_room (s := s.setLate []) valid fits, State.setLate_conditions, empty]
  rfl

/-- R141, R144: outside VALID the survivors become the LATE list. -/
theorem State.catchUp_of_closed (closed : s.site.state ≠ .valid)
    (h : s.Survivors (s.lastPerTarget s.catchUpCandidates)) :
    s.catchUp.conditions = s.conditions ∧ s.catchUp.schedule.late = s.lastPerTarget s.catchUpCandidates := by
  obtain ⟨same, marked, late, sub, all⟩ :=
    State.offerEntries_of_closed (s := s.setLate []) (s.lastPerTarget s.catchUpCandidates) closed
  have whole : marked = s.lastPerTarget s.catchUpCandidates :=
    sub.eq_of_length_le (h.nodup.subperm all).length_le
  exact ⟨same, late.trans whole⟩

theorem State.insertByMinute_hunting (i : Nat) (sorted : List Nat) :
    s.hunting.insertByMinute i sorted = s.insertByMinute i sorted := by
  induction sorted with
  | nil => rfl
  | cons j rest ih =>
    rw [State.insertByMinute, State.insertByMinute, ih]
    rfl

theorem State.lastPerTarget_hunting (candidates : List Nat) :
    s.hunting.lastPerTarget candidates = s.lastPerTarget candidates := by
  induction candidates with
  | nil => rfl
  | cons i rest ih =>
    rw [State.lastPerTarget, State.lastPerTarget, ih]
    rfl

theorem State.dueToday_hunting (s : State) : s.hunting.dueToday = s.dueToday := by
  simp only [State.dueToday, State.insertByMinute_hunting]
  rfl

/-- A catch-up and the receiver's return to HUNT do not meet. -/
theorem State.catchUp_hunting (s : State) : s.hunting.catchUp = s.catchUp.hunting := by
  have candidates : s.hunting.catchUpCandidates = s.catchUpCandidates := by
    rw [State.catchUpCandidates, State.catchUpCandidates, State.dueToday_hunting, State.hunting_schedule]
  rw [State.catchUp_eq, candidates, State.lastPerTarget_hunting, State.catchUp_eq]
  exact (s.setLate []).offerEntries_hunting _

/-- Offers leave the lanes as they are. -/
theorem State.OffersOnly.searching_iff {t : State} (h : s.OffersOnly t) : t.Searching ↔ s.Searching := by
  obtain ⟨_, _, _, _, _, rfl⟩ := h
  rfl

/-- Offers leave the turn and the epoch as they are. -/
theorem State.OffersOnly.turn {t : State} (h : s.OffersOnly t) : t.conditions.turn = s.conditions.turn := by
  obtain ⟨_, _, _, _, _, rfl⟩ := h
  rfl

theorem State.OffersOnly.epoch {t : State} (h : s.OffersOnly t) : t.conditions.epoch = s.conditions.epoch := by
  obtain ⟨_, _, _, _, _, rfl⟩ := h
  rfl

theorem State.OffersOnly.running {t : State} (h : s.OffersOnly t) (running : s.Running) : t.Running := by
  obtain ⟨_, _, _, _, _, rfl⟩ := h
  exact running

/-! ### Asking for a turn (R107, R145) -/

section

variable (cause : TurnCause)

theorem State.askTurn_hunting (s : State) : s.hunting.askTurn cause = (s.askTurn cause).hunting := by
  by_cases begins : s.conditions.turn = .idle ∧ s.HasWork
  · obtain ⟨idle, work⟩ := begins
    rw [State.askTurn_begins idle work, State.askTurn_begins (s := s.hunting) idle work]
    by_cases searching : s.Searching
    · rw [State.beginTurn_searching searching, State.beginTurn_searching (s := s.hunting) searching]
      rfl
    · rw [State.beginTurn_applies searching, State.beginTurn_applies (s := s.hunting) searching,
        State.applyTurn_hunting]
  · have refused : s.conditions.turn ≠ .idle ∨ ¬ s.HasWork := not_and_or.mp begins
    rw [State.askTurn_refused refused, State.askTurn_refused (s := s.hunting) refused]

/-- A turn asked for writes the Condition Unit, the LATE list and the notices, and nothing else. -/
theorem State.askTurn_frame (s : State) : ∃ conditions late notices mark count, s.askTurn cause = { s with
    conditions := conditions
    schedule := { s.schedule with late := late }
    link := { s.link with notices := notices, overrunMark := mark, dropped := count } } := by
  by_cases begins : s.conditions.turn = .idle ∧ s.HasWork
  · obtain ⟨idle, work⟩ := begins
    rw [State.askTurn_begins idle work]
    by_cases searching : s.Searching
    · rw [State.beginTurn_searching searching]
      exact ⟨_, _, _, _, _, rfl⟩
    · obtain ⟨_, _, _, _, _, _, _, _, turned⟩ := s.applyTurn_frame cause
      rw [State.beginTurn_applies searching, turned]
      exact ⟨_, _, _, _, _, rfl⟩
  · rw [State.askTurn_refused (not_and_or.mp begins)]
    exact ⟨_, _, _, _, _, rfl⟩

/-- R107: while a lane is SEARCHING a turn asked for can only begin to wait. -/
theorem State.askTurn_searching (searching : s.Searching) : ∃ turn,
    s.askTurn cause = { s with conditions := { s.conditions with turn := turn } } ∧
      (s.conditions.turn = .idle → s.HasWork → turn = .waiting cause) := by
  by_cases begins : s.conditions.turn = .idle ∧ s.HasWork
  · obtain ⟨idle, work⟩ := begins
    rw [State.askTurn_begins idle work, State.beginTurn_searching searching]
    exact ⟨_, rfl, fun _ _ => rfl⟩
  · rw [State.askTurn_refused (not_and_or.mp begins)]
    exact ⟨_, rfl, fun idle work => absurd ⟨idle, work⟩ begins⟩

end

/-! ### SET CLOCK (R139) -/

theorem exec_setClock (started : s.Started) (hs : second < 4294967296) (hd : day < 256) :
    exec (.setClock (le32 second ++ le8 day)) s = .next ((s.hunting.setClock second day).replied .setClock) := by
  have dayByte : byteAt (le32 second ++ le8 day) 4 = day := byteAt_le8 hd []
  change Host.Outcome.next (s.take _ _ _) = _
  rw [State.take_of_started started rfl, longAt_le32 hs, dayByte]

theorem State.setClock_refused (h : 86399 < second ∨ 6 < day) : s.setClock second day = refuse s .badValue :=
  if_pos (by simpa using h)

theorem State.setClock_accepted (hs : second ≤ 86399) (hd : day ≤ 6) : s.setClock second day =
    accept (if s.site.state.turnTimerRuns then s.clockWritten second day else s.writeClock second day) :=
  if_neg (by simpa using And.intro hs hd)

/-- R139: a clock written outside VALID and DRAINING is all that SET CLOCK changes. -/
theorem exec_setClock_unavailable (started : s.Started) (hs : second ≤ 86399) (hd : day ≤ 6)
    (notValid : s.site.state ≠ .valid) (notDraining : s.site.state ≠ .draining) :
    exec (.setClock (le32 second ++ le8 day)) s =
      .next { s.writeClock second day with link := s.link.answered 0x8F [0] } := by
  have off : s.hunting.site.state.turnTimerRuns = false := SiteState.turnTimerRuns_eq_false notValid notDraining
  rw [exec_setClock started (by omega) (by omega), State.setClock_accepted hs hd, off]
  rfl

theorem State.clockWritten_hunting (s : State) (second day : Nat) :
    s.hunting.clockWritten second day = (s.clockWritten second day).hunting := by
  have caughtUp : (s.hunting.writeClock second day).catchUp = (s.writeClock second day).catchUp.hunting :=
    (s.writeClock second day).catchUp_hunting
  rw [State.clockWritten, caughtUp, State.askTurn_hunting, State.clockWritten]

/-- R139, R145: in VALID and DRAINING the catch-up is made and its turn asked for, and the reply joins the queue. -/
theorem exec_setClock_available (started : s.Started) (hs : second ≤ 86399) (hd : day ≤ 6)
    (available : s.site.state = .valid ∨ s.site.state = .draining) :
    exec (.setClock (le32 second ++ le8 day)) s = .next { s.clockWritten second day with
      link := (s.clockWritten second day).link.answered 0x8F [0] } := by
  have on : s.hunting.site.state.turnTimerRuns = true := (SiteState.turnTimerRuns_iff _).mpr available
  rw [exec_setClock started (by omega) (by omega), State.setClock_accepted hs hd, on, if_pos rfl,
    State.clockWritten_hunting]
  rfl

/-- What SET CLOCK writes in VALID and DRAINING besides its reply. -/
theorem State.clockWritten_frame (s : State) (second day : Nat) : ∃ conditions late notices mark count,
    s.clockWritten second day = { s with
      conditions := conditions
      schedule := { clockSet := true, second := second, day := day, late := late, boundaryDue := false }
      link := { s.link with notices := notices, overrunMark := mark, dropped := count } } := by
  obtain ⟨_, _, _, _, _, caughtUp⟩ := (s.writeClock second day).catchUp_offersOnly
  obtain ⟨conditions, late, notices, mark, count, asked⟩ := (s.writeClock second day).catchUp.askTurn_frame .schedule
  refine ⟨conditions, late, notices, mark, count, asked.trans ?_⟩
  rw [caughtUp]
  rfl

end

end Sys2Proof.Machine
end

section

open Sys2Proof Sys2Proof.Machine

/-- Settles O36: the survivors are those of `State.catchUp_survivors`, and the state they leave asks for the turn. -/
theorem setClockWritesTheClock : Obligations.SetClockWritesTheClock := by
  intro s second day started hs hd
  refine ⟨fun bad => ?_, fun within onDay => ⟨exec_setClock_unavailable started within onDay,
    fun available late once => ?_, fun available => ?_⟩⟩
  · rw [exec_setClock started hs hd, State.setClock_refused bad]
    exact congrArg _ (s.refuse_replied .setClock .badValue (by decide))
  · let written := s.writeClock second day
    have survivors := written.catchUp_survivors late
    have offered : written.OffersOnly written.catchUp := written.catchUp_offersOnly
    have turn : written.catchUp.conditions.turn = s.conditions.turn := offered.turn
    have searches : written.catchUp.Searching ↔ s.Searching := offered.searching_iff
    rw [exec_setClock_available started within onDay available, State.clockWritten]
    refine ⟨_, written.catchUp, survivors, State.offerEntries_offers _ (written.setLate []) once,
      fun draining => ?_, fun refused => ?_, fun idle work searching => ?_, fun idle work free => ?_⟩
    · have closed : written.site.state ≠ .valid := fun valid => nomatch draining.symm.trans valid
      exact (State.catchUp_of_closed closed survivors).symm
    · rw [State.askTurn_refused (turn ▸ refused)]
    · rw [State.askTurn_begins (turn.trans idle) work, State.beginTurn_searching (searches.mpr searching)]
    · have still : ¬ written.catchUp.Searching := mt searches.mp free
      rw [State.askTurn_begins (turn.trans idle) work, State.beginTurn_applies still]
      exact ⟨_, State.applyStep_waiting .schedule (offered.running started.1.1) still, rfl⟩
  · obtain ⟨_, _, _, _, _, frame⟩ := s.clockWritten_frame second day
    rw [exec_setClock_available started within onDay available, frame]
    exact ⟨_, rfl, rfl, rfl, rfl, rfl⟩

/-- Settles O37: with room for them all, the survivors are the pending list, and the turn can only wait. -/
theorem catchUpKeepsTheLatestEntry : Obligations.CatchUpKeepsTheLatestEntry := by
  intro s second day started searching valid empty noneLate room within onDay due later
  let written := s.writeClock second day
  have survivors : written.Survivors (written.lastPerTarget written.catchUpCandidates) :=
    written.catchUp_survivors (noneLate ▸ List.nodup_nil)
  have offered : written.OffersOnly written.catchUp := written.catchUp_offersOnly
  have caughtUp := State.catchUp_of_room (s := written) valid empty survivors noneLate room
  obtain ⟨turn, asked, waits⟩ := State.askTurn_searching .schedule (offered.searching_iff.mpr searching)
  rw [exec_setClock_available started within onDay (.inl valid), State.clockWritten, asked]
  refine ⟨_, rfl, congrArg (fun u => u.schedule.late) caughtUp, fun e => ?_,
    fun edits idle => waits (offered.turn.trans idle) (.inl edits), offered.epoch⟩
  change e ∈ written.catchUp.conditions.edits ↔ _
  rw [caughtUp]
  refine (State.mem_putEntries_nil survivors.targets e).trans (exists_congr fun i => ?_)
  rw [survivors.mem_iff_of_noneLate noneLate, and_assoc, and_comm (b := e = _)]
  rfl

end

section
/-! SUPPORT. The part under an asserted RESET pin (R165, R177, R178). -/

namespace Sys2Proof.Machine

/-! ### Commands that find RESET asserted (R177) -/

section

variable {s : State} (deaf : s.pins.resetAsserted = true ∨ s.link.softReset = true)
include deaf

theorem State.answerError_of_deaf (code : ReplyCode) : s.answerError code = s := State.judge_of_deaf deaf _

/-- While RESET is asserted, or after a SOFT RESET, no request is taken, whatever its length. -/
theorem State.take_of_deaf (kind : RequestKind) (payload : List Byte) (block : State → Answer) :
    s.take kind payload block = s := by
  unfold State.take
  split
  · exact State.answerError_of_deaf deaf _
  · exact State.judge_of_deaf deaf _

theorem State.judgeLate_of_deaf (late : Option Byte) : s.judgeLate late = s := by
  unfold State.judgeLate
  split
  · exact State.sync_of_deaf deaf []
  · rfl

end

/-- R177: under an asserted RESET a request frame, a frame answered ERROR, the bytes of a frame and an event are all without
effect; the two resets are left. -/
theorem exec_of_reset {s : State} (asserted : s.pins.resetAsserted = true) {c : Instr}
    (release : ∀ rate bootld alarm, c ≠ .powerOnReset rate bootld alarm)
    (again : ∀ rate bootld, c ≠ .resetAsserted rate bootld) : exec c s = .next s := by
  have deaf : s.pins.resetAsserted = true ∨ s.link.softReset = true := .inl asserted
  have error := fun code => State.answerError_of_deaf deaf code
  have event : ∀ effect, Host.Outcome.next (s.event effect) = (.next s : Host.Outcome State Fault Refusal) :=
    fun effect => congrArg _ (State.event_of_reset asserted effect)
  cases c with
  | powerOnReset rate bootld alarm => exact absurd rfl (release rate bootld alarm)
  | resetAsserted rate bootld => exact absurd rfl (again rate bootld)
  | ackStart | status | softReset | setParam | getParam | siteOpen | siteClose | tableWrite | tableRead | siteLoad
  | siteDump | condition | conditionRead | turnNow | setClock | route | cancel | collect | screenState | flowRead
  | egressEnter | egressResume => exact congrArg Host.Outcome.next (State.take_of_deaf deaf _ _ _)
  | badCheck | unknownKind => exact congrArg Host.Outcome.next (ite_eq_left_iff.mpr fun _ => error _)
  | badLength => exact congrArg Host.Outcome.next (ite_eq_right_iff.mpr fun _ => error _)
  | frameTimeout late =>
    refine congrArg Host.Outcome.next (ite_eq_right_iff.mpr fun _ => ?_)
    rw [error, State.judgeLate_of_deaf deaf]
  | linkBusy => exact congrArg Host.Outcome.next (ite_eq_right_iff.mpr fun _ => State.judge_of_deaf deaf _)
  | sync bytes => exact congrArg Host.Outcome.next (State.sync_of_deaf deaf bytes)
  | softResetEffect | alarmPinChange | alarmAsserted | alarmClear | frameBoundary | startRepeatTimerExpiry | grant
  | recordComplete | slotGrant | holdTimerExpiry | drainEnd | turnTimerExpiry | applyStep | tick | minuteBoundary
  | sampleTimerExpiry | pollSent | counterReply | replyTimeout | busyClear | flashTimeout | headerRead | recordRead =>
    exact event _

/-! ### RESET_ASSERTED (R165, R178) -/

theorem State.transferRuns_iff (s : State) : s.transferRuns = true ↔ s.transfer.state ≠ .idle := decide_eq_true_iff

theorem State.abortTransfer_of_idle {s : State} (idle : s.transfer.state = .idle) : s.abortTransfer = s :=
  if_neg fun runs => s.transferRuns_iff.mp runs idle

theorem State.abortTransfer_of_running {s : State} (runs : s.transfer.state ≠ .idle) :
    s.abortTransfer = s.setTransfer s.transfer.aborted := if_pos (s.transferRuns_iff.mpr runs)

/-- R165: what the transfer is left as, running or not. -/
theorem State.abortTransfer_transfer (s : State) : ∃ unit, s.abortTransfer = s.setTransfer unit ∧ unit.state = .idle ∧
    (s.transfer.state ≠ .idle → unit.operation = none ∧ unit.address = none) ∧
    (s.transfer.state = .idle → unit = s.transfer) ∧ unit.last = s.transfer.last := by
  by_cases idle : s.transfer.state = .idle
  · exact ⟨s.transfer, State.abortTransfer_of_idle idle, idle, fun runs => absurd idle runs, fun _ => rfl, rfl⟩
  · exact ⟨_, State.abortTransfer_of_running idle, rfl, fun _ => ⟨rfl, rfl⟩, fun h => absurd h idle, rfl⟩

end Sys2Proof.Machine
end

section

open Sys2Proof Sys2Proof.Machine

/-- Settles O3: the transfer is the one `State.abortTransfer` leaves, and every other command finds RESET asserted. -/
theorem assertedResetStopsThePart : Obligations.AssertedResetStopsThePart := by
  refine ⟨fun rate bootld s => ?_, fun c s asserted release again => exec_of_reset asserted release again⟩
  obtain ⟨unit, aborted, idle, running, still, last⟩ := s.abortTransfer_transfer
  have next : exec (.resetAsserted rate bootld) s = .next { s with
      pins := { resetAsserted := true, rate := rate, bootld := bootld }
      transfer := unit
      link := { s.link with sending := none } } := by
    change Host.Outcome.next (s.assertReset rate bootld) = _
    rw [State.assertReset, aborted]
    rfl
  exact ⟨_, next, rfl, rfl, decide_eq_true idle, rfl, idle, running, still, last, rfl⟩

end

section
/-! SUPPORT. The image of the present tables (R160, R164, R179), and the course of a dump (R158, R163, R164, R166). -/

namespace Sys2Proof.Machine

/-! ### The bytes of the image (R164, R179) -/

/-- R161, R164: the running check is the sum of the bytes modulo 65536. -/
theorem addToCheck_eq (bytes : List Byte) (check : Word16) :
    addToCheck check bytes = check + BitVec.ofNat 16 (bytes.map BitVec.toNat).sum := by
  induction bytes generalizing check with
  | nil => simp [addToCheck]
  | cons b rest ih =>
    change addToCheck (check + BitVec.ofNat 16 b.toNat) rest = _
    rw [ih, List.map_cons, List.sum_cons, BitVec.ofNat_add, BitVec.add_assoc]

theorem addToCheck_zero (bytes : List Byte) : addToCheck 0 bytes = BitVec.ofNat 16 (bytes.map BitVec.toNat).sum := by
  rw [addToCheck_eq]
  exact BitVec.zero_add _

/-- R179: two bytes a word, and two zero bytes after an odd number of words. -/
theorem wordsToBytes_length (words : List Nat) : (wordsToBytes words).length = 2 * (words.length + words.length % 2) := by
  have pairs : (words.flatMap le16).length = 2 * words.length := by
    simp [List.length_flatMap, le16, Nat.mul_comm]
  rw [wordsToBytes, List.length_append, pairs]
  split <;> simp <;> omega

section

variable (s : SiteStore)

/-- R179: the bytes of a record are its table's record size. -/
theorem SiteStore.record_bytes_length (t : TableId) (i : Nat) : (s.record t i).bytes.length = t.recordBytes := by
  have fields : (s.record t i).words.length = t.fields := by cases t <;> rfl
  rw [Record.bytes, wordsToBytes_length, fields]
  cases t <;> rfl

theorem SiteStore.recordsBytes_length (t : TableId) (first count : Nat) :
    (s.recordsBytes t first count).length = count * t.recordBytes := by
  simp [SiteStore.recordsBytes, List.length_flatMap, SiteStore.record_bytes_length]

theorem SiteStore.imageHeader_length : s.imageHeader.length = 32 := by
  simp [SiteStore.imageHeader, le8, le16, le32]

theorem SiteStore.take_image : s.image.take 32 = s.imageHeader := List.take_left' s.imageHeader_length

theorem SiteStore.drop_image : s.image.drop 32 = s.imageBody := List.drop_left' s.imageHeader_length

/-- R160, R164: the length that a header states is that of the image. -/
theorem SiteStore.image_length : s.image.length = s.header.imageLength := by
  have tables : s.imageBody.length = (TableId.imageOrder.map fun t => s.header.recordsOf t * t.recordBytes).sum := by
    simp only [SiteStore.imageBody, List.length_flatMap, SiteStore.recordsBytes_length]
  rw [SiteStore.image, List.length_append, tables, SiteStore.imageHeader_length]
  rfl

/-- R164: the tables of the body in their order, each up to its count. -/
theorem SiteStore.imageBody_eq : s.imageBody =
    (TableId.imageOrder.map fun t => (t, s.header.recordsOf t)).flatMap fun table =>
      (List.range table.2).flatMap fun i => (s.record table.1 i).bytes := by
  simp only [SiteStore.imageBody, SiteStore.recordsBytes, List.flatMap_map, Nat.zero_add]

/-- R160, R179: each field of the image's header reads back, as far as its bytes hold it. -/
theorem SiteStore.read_imageHeader (rest : List Byte) :
    let bytes := s.imageHeader ++ rest
    byteAt bytes 0 = 0x48 ∧ byteAt bytes 1 = 0x50 ∧ byteAt bytes 2 = 1 ∧
    headerOf bytes =
      { nodeCount := s.header.nodeCount % 65536, edgeCount := s.header.edgeCount % 65536
        adjacencyCount := s.header.adjacencyCount % 65536, groupCount := s.header.groupCount % 65536
        memberCount := s.header.memberCount % 65536, directoryCount := s.header.directoryCount % 65536
        scheduleCount := s.header.scheduleCount % 65536, exitGroup := s.header.exitGroup % 65536
        fBusy := s.header.fBusy % 256, fCrowded := s.header.fCrowded % 256, fUnknown := s.header.fUnknown % 256 } ∧
    longAt bytes 24 = s.header.imageLength % 4294967296 ∧
    wordAt bytes 28 = (addToCheck 0 s.imageBody).toNat := by
  have marker : ([0x48, 0x50] : List Byte) = le8 0x48 ++ le8 0x50 := rfl
  have check := Nat.mod_eq_of_lt (addToCheck 0 s.imageBody).isLt
  simp only [SiteStore.imageHeader, marker, headerOf, List.append_assoc, byteAt, wordAt, longAt, drop_le8, drop_le16,
    drop_le32, List.drop_zero, ofLe_take_le8, ofLe_take_le16, ofLe_take_le32]
  simp only [check, and_self]

theorem SiteStore.statedCheck_image (rest : List Byte) :
    wordAt (s.imageHeader ++ rest) 28 = (addToCheck 0 s.imageBody).toNat := by
  obtain ⟨-, -, -, -, -, check⟩ := s.read_imageHeader rest
  exact check

end

/-- R12: the fields of a header in range, each below the bound of its bytes in an image. -/
theorem Header.inRange_iff (h : Header) : h.inRange = true ↔
    (h.nodeCount ≤ 2048 ∧ h.edgeCount ≤ 4096 ∧ h.adjacencyCount ≤ 8192 ∧ h.groupCount ≤ 256 ∧ h.memberCount ≤ 2048 ∧
      h.directoryCount ≤ 1024 ∧ h.scheduleCount ≤ 128 ∧ h.exitGroup ≤ 255) ∧
    (16 ≤ h.fBusy ∧ h.fBusy ≤ 255) ∧ (16 ≤ h.fCrowded ∧ h.fCrowded ≤ 255) ∧ 16 ≤ h.fUnknown ∧ h.fUnknown ≤ 255 := by
  simp only [Header.inRange, Bool.and_eq_true, decide_eq_true_eq, and_assoc]

/-- R160: an image of tables in range fits four bytes of length. -/
theorem Header.imageLength_lt {h : Header} (range : h.inRange = true) : h.imageLength < 4294967296 := by
  obtain ⟨⟨_, _, _, _, _, _, _, _⟩, _⟩ := h.inRange_iff.mp range
  rw [h.imageLength_eq]
  omega

section

variable {s : SiteStore} (range : s.header.inRange = true)
include range

/-- R160: the header an image states is that of the tables. -/
theorem SiteStore.headerOf_imageHeader : headerOf s.imageHeader = s.header := by
  obtain ⟨-, -, -, fields, -⟩ := s.read_imageHeader []
  obtain ⟨⟨_, _, _, _, _, _, _, _⟩, ⟨-, _⟩, ⟨-, _⟩, -, _⟩ := s.header.inRange_iff.mp range
  have word {n : Nat} (h : n ≤ 8192) : n % 65536 = n := Nat.mod_eq_of_lt (by omega)
  have byte {n : Nat} (h : n ≤ 255) : n % 256 = n := Nat.mod_eq_of_lt (by omega)
  rw [List.append_nil] at fields
  rw [fields, word (by omega), word (by omega), word (by omega), word (by omega), word (by omega), word (by omega),
    word (by omega), word (by omega), byte (by omega), byte (by omega), byte (by omega)]

theorem SiteStore.statedLength_image (rest : List Byte) :
    longAt (s.imageHeader ++ rest) 24 = s.header.imageLength := by
  obtain ⟨-, -, -, -, length, -⟩ := s.read_imageHeader rest
  rw [length, Nat.mod_eq_of_lt (Header.imageLength_lt range)]

/-- R160: H1 to H5 pass on the header of the image, where the image fits. -/
theorem SiteStore.headerFailure_image {address : Nat} (fits : address + s.header.imageLength ≤ 16777216) :
    headerFailure s.imageHeader address = none := by
  obtain ⟨marker, marker', format, -⟩ := s.read_imageHeader []
  have length := SiteStore.statedLength_image range []
  rw [List.append_nil] at marker marker' format length
  simp [headerFailure, marker, marker', format, SiteStore.headerOf_imageHeader range, length, range, fits]

end

/-! ### SITE_DUMP (R163) -/

section

variable {s : State} {address : Nat}

theorem exec_siteDump (started : s.Started) (bound : address < 4294967296) :
    exec (.siteDump (le32 address)) s = .next ((s.hunting.siteDump address).replied .siteDump) := by
  have payload : longAt (le32 address) 0 = address := longAt_le32 bound []
  change Host.Outcome.next (s.take _ _ _) = _
  rw [State.take_of_started started rfl, payload]

theorem exec_siteDump_refused (started : s.Started) (bound : address < 4294967296) (code : ReplyCode) (notOk : code ≠ .ok)
    (refused : s.hunting.siteDump address = refuse s.hunting code) :
    exec (.siteDump (le32 address)) s = .next (s.answers 0x8B (le8 code.code)) := by
  rw [exec_siteDump started bound, refused]
  exact congrArg _ (s.refuse_replied .siteDump code notOk)

theorem exec_siteDump_accepted (started : s.Started) (bound : address < 4294967296)
    (accepted : s.hunting.siteDump address = accept (s.hunting.startDump address)) :
    exec (.siteDump (le32 address)) s = .next { s.answers 0x8B [0] with
      transfer := (s.startDump address).transfer } := by
  rw [exec_siteDump started bound, accepted]
  rfl

/-- R163: the first check is that no transfer runs. -/
theorem State.siteDump_busy (runs : s.transfer.state ≠ .idle) : s.siteDump address = refuse s .transferBusy :=
  if_pos (s.transferRuns_iff.mpr runs)

variable (idle : s.transfer.state = .idle)
include idle

theorem State.siteDump_of_idle : s.siteDump address =
    if s.site.state ≠ .valid then refuse s .wrongState
    else if address % 4096 ≠ 0 then refuse s .badValue
    else if 16777216 < address + s.site.header.imageLength then refuse s .tooLarge
    else accept (s.startDump address) :=
  if_neg fun runs => s.transferRuns_iff.mp runs idle

theorem State.siteDump_wrongState (site : s.site.state ≠ .valid) : s.siteDump address = refuse s .wrongState := by
  rw [State.siteDump_of_idle idle, if_pos site]

variable (site : s.site.state = .valid)
include site

theorem State.siteDump_badValue (sector : address % 4096 ≠ 0) : s.siteDump address = refuse s .badValue := by
  rw [State.siteDump_of_idle idle, if_neg (not_not.mpr site), if_pos sector]

variable (sector : address % 4096 = 0)
include sector

theorem State.siteDump_tooLarge (long : 16777216 < address + s.site.header.imageLength) :
    s.siteDump address = refuse s .tooLarge := by
  rw [State.siteDump_of_idle idle, if_neg (not_not.mpr site), if_neg (not_not.mpr sector), if_pos long]

theorem State.siteDump_accepted (fits : address + s.site.header.imageLength ≤ 16777216) :
    s.siteDump address = accept (s.startDump address) := by
  rw [State.siteDump_of_idle idle, if_neg (not_not.mpr site), if_neg (not_not.mpr sector), if_neg (Nat.not_lt.mpr fits)]

end

/-! ### BUSY_CLEAR (R158, R164) -/

section

variable {s : State}

theorem exec_busyClear (running : s.Running) : exec .busyClear s = .next s.busyClear := by
  change Host.Outcome.next (s.event _) = _
  rw [State.event_of_running running]

theorem exec_flashTimeout (running : s.Running) : exec .flashTimeout s = .next s.flashTimeout := by
  change Host.Outcome.next (s.event _) = _
  rw [State.event_of_running running]

theorem State.busyClear_load (wait : s.transfer.state = .readyWait) (load : s.transfer.operation = some .load) :
    s.busyClear = s.readHeader := by
  simp only [State.busyClear, wait, load]

theorem State.busyClear_dump (wait : s.transfer.state = .readyWait) (dump : s.transfer.operation = some .dump) :
    s.busyClear = s.eraseAt 0 := by
  simp only [State.busyClear, wait, dump]

theorem State.busyClear_erase (erase : s.transfer.state = .erase) : s.busyClear = s.eraseNext s.transfer.offset := by
  simp only [State.busyClear, erase]

theorem State.busyClear_program (program : s.transfer.state = .program) (offset : s.transfer.offset ≠ 0) :
    s.busyClear = s.programNext s.transfer.offset := by
  simp only [State.busyClear, program, if_neg offset]

theorem State.endTransfer_dump (s : State) (outcome : TransferOutcome) :
    s.endTransfer s.transfer .dump outcome none = s.dumpEnded outcome := rfl

theorem State.failLoad_eq (s : State) (outcome : TransferOutcome) : s.failLoad outcome = s.loadFailed outcome := rfl

theorem State.busyClear_firstPage (program : s.transfer.state = .program) (first : s.transfer.offset = 0) :
    s.busyClear = s.dumpEnded .written := by
  simp only [State.busyClear, program, if_pos first, State.endTransfer_dump]

theorem TransferUnit.length_of_some {t : TransferUnit} {length : Nat} (known : t.imageLength = some length) :
    t.length = length := congrArg (Option.getD · 0) known

section

variable {length offset : Nat} (known : s.transfer.imageLength = some length)
include known

theorem State.programNext_more (more : offset + 256 < length) : s.programNext offset = s.programAt (offset + 256) :=
  if_pos ((TransferUnit.length_of_some known).symm ▸ more)

theorem State.programNext_last (last : length ≤ offset + 256) : s.programNext offset = s.programAt 0 :=
  if_neg (Nat.not_lt.mpr ((TransferUnit.length_of_some known).symm ▸ last))

theorem State.eraseNext_more (more : offset + 4096 < length) : s.eraseNext offset = s.eraseAt (offset + 4096) :=
  if_pos ((TransferUnit.length_of_some known).symm ▸ more)

theorem State.eraseNext_last (last : length ≤ offset + 4096) : s.eraseNext offset = s.programNext 0 :=
  if_neg (Nat.not_lt.mpr ((TransferUnit.length_of_some known).symm ▸ last))

end

/-! ### FLASH_TIMEOUT (R158) -/

variable {address : Nat} (place : s.transfer.address = some address)
include place

/-- R158: a poll that runs past its allowance ends a dump with the stage and the address reached. -/
theorem State.flashTimeout_dump (dump : s.transfer.operation = some .dump)
    (polls : s.transfer.state = .readyWait ∨ s.transfer.state = .erase ∨ s.transfer.state = .program) :
    s.flashTimeout = s.dumpEnded (.flashTimeout s.transfer.state (address + s.transfer.offset)) := by
  simp only [State.flashTimeout, Bool.or_eq_true, decide_eq_true_eq, or_assoc, if_pos polls, dump, place, Option.getD_some,
    State.endTransfer_dump]

theorem State.flashTimeout_load (load : s.transfer.operation = some .load) (wait : s.transfer.state = .readyWait) :
    s.flashTimeout = s.loadFailed (.flashTimeout .readyWait (address + s.transfer.offset)) := by
  simp only [State.flashTimeout, wait, decide_true, Bool.true_or, if_true, load, place, Option.getD_some, State.failLoad_eq]

end

end Sys2Proof.Machine
end

section

open Sys2Proof Sys2Proof.Machine

/-- Settles O53: the five parts are SITE DUMP's checks, the bytes of the image, its header against H1 to H5, and the course of
a dump and of a load's READY_WAIT by the state that polls. -/
theorem dumpsEraseThenProgramTheImage : Obligations.DumpsEraseThenProgramTheImage := by
  refine ⟨fun s address started bound => ?_, fun s => s.site.drop_image.trans s.site.imageBody_eq, fun s ranges => ?_,
    fun s address length running place known dump => ?_, fun s address running place load wait start => ?_⟩
  · dsimp only
    rw [← Header.imageLength_eq]
    refine ⟨fun runs => exec_siteDump_refused started bound .transferBusy nofun (State.siteDump_busy runs),
      fun idle => ⟨fun site => ?_, fun site => ⟨fun sector => ?_, fun sector long => ?_, fun sector fits => ⟨_, rfl, ?_⟩⟩⟩⟩
    · exact exec_siteDump_refused started bound .wrongState nofun (State.siteDump_wrongState idle site)
    · exact exec_siteDump_refused started bound .badValue nofun (State.siteDump_badValue idle site sector)
    · exact exec_siteDump_refused started bound .tooLarge nofun (State.siteDump_tooLarge idle site sector long)
    · rw [SiteStore.drop_image, ← addToCheck_zero]
      exact exec_siteDump_accepted started bound (State.siteDump_accepted idle site sector fits)
  · have range : s.site.header.inRange = true := ranges .header 0
    have check : wordAt s.site.image 28 = (addToCheck 0 s.site.imageBody).toNat := s.site.statedCheck_image _
    rw [SiteStore.take_image, SiteStore.drop_image, check, addToCheck_zero]
    exact ⟨s.site.image_length, SiteStore.headerOf_imageHeader range, SiteStore.statedLength_image range _, rfl,
      fun address fits => SiteStore.headerFailure_image range fits⟩
  · have at_ : s.transfer.address.getD 0 = address := congrArg (Option.getD · 0) place
    subst at_
    rw [exec_busyClear running, exec_flashTimeout running]
    refine ⟨fun wait => ?_, fun erase => ⟨fun more => ?_, fun last second => ?_⟩,
      fun program => ⟨fun offset more => ?_, fun offset last => ?_, fun first => ?_⟩, fun polls => ?_⟩
    · rw [State.busyClear_dump wait dump]
      rfl
    · rw [State.busyClear_erase erase, State.eraseNext_more known more]
      rfl
    · rw [State.busyClear_erase erase, State.eraseNext_last known last,
        State.programNext_more known (offset := 0) (by omega)]
      rfl
    · rw [State.busyClear_program program offset, State.programNext_more known more]
      rfl
    · rw [State.busyClear_program program offset, State.programNext_last known last]
      rfl
    · rw [State.busyClear_firstPage program first]
    · rw [State.flashTimeout_dump place dump polls]
  · have at_ : s.transfer.address.getD 0 = address := congrArg (Option.getD · 0) place
    subst at_
    rw [exec_busyClear running, exec_flashTimeout running, State.busyClear_load wait load,
      State.flashTimeout_load place load wait, start]
    exact ⟨rfl, rfl⟩

end

section
/-! SUPPORT. The commands that are frames (R168): what they do is `State.take` or `State.judge`, and the lengths their layouts
allow (R179). -/

namespace Sys2Proof.Machine

/-! ### Requests and whole frames -/

/-- A request row is its frame, taken by the block of its kind. -/
theorem exec_of_request {c : Instr} {kind : RequestKind} {payload : List Byte}
    (request : c.requestOf = some (kind, payload)) (s : State) :
    ∃ block, exec c s = .next (s.take kind payload block) := by
  cases c with
  | ackStart | status | softReset | setParam | getParam | siteOpen | siteClose | tableWrite | tableRead | siteLoad
  | siteDump | condition | conditionRead | turnNow | setClock | route | cancel | collect | screenState | flowRead
  | egressEnter | egressResume =>
    cases request
    exact ⟨_, rfl⟩
  | _ => cases request

/-- A request's frame is judged, too long or not. -/
theorem State.take_judges (s : State) (kind : RequestKind) (payload : List Byte) (block : State → Answer) :
    ∃ dealt, s.take kind payload block = s.judge dealt := by
  unfold State.take
  split
  · exact ⟨_, rfl⟩
  · exact ⟨_, rfl⟩

theorem exec_badCheck {bytes : List Byte} (sum : byteSum bytes ≠ 0) (s : State) :
    exec (.badCheck bytes) s = .next (s.answerError .badCheck) := congrArg Host.Outcome.next (if_neg sum)

theorem exec_unknownKind {kind : Byte} (unknown : isRequestKind kind = false) (s : State) :
    exec (.unknownKind kind) s = .next (s.answerError .unknownKind) :=
  congrArg Host.Outcome.next (if_neg (Bool.eq_false_iff.mp unknown))

theorem exec_badLength {length : BitVec 16} (long : 1024 < length.toNat) (s : State) :
    exec (.badLength length) s = .next (s.answerError .badLength) := congrArg Host.Outcome.next (if_pos long)

/-- A whole frame is judged at its end (R168). -/
theorem exec_of_wholeFrame {c : Instr} (whole : c.wholeFrame) (s : State) :
    ∃ dealt, exec c s = .next (s.judge dealt) := by
  rcases whole with request | ⟨bytes, rfl, sum⟩ | ⟨kind, rfl, unknown⟩ | ⟨length, rfl, long⟩
  · obtain ⟨⟨kind, payload⟩, request⟩ := Option.isSome_iff_exists.mp request
    obtain ⟨block, taken⟩ := exec_of_request request s
    obtain ⟨dealt, judged⟩ := s.take_judges kind payload block
    exact ⟨dealt, taken.trans (congrArg _ judged)⟩
  · exact ⟨_, exec_badCheck sum s⟩
  · exact ⟨_, exec_unknownKind unknown s⟩
  · exact ⟨_, exec_badLength long s⟩

/-- A frame that is taken and answered ERROR. -/
theorem State.answerError_of_open {s : State} (h : s.Open) (code : ReplyCode) :
    s.answerError code = s.answers 0x80 (le8 code.code) := State.judge_of_open h _

/-! ### SOFT RESET (R172) -/

theorem exec_softReset {s : State} (h : s.Open) :
    exec (.softReset []) s = .next { s with link := { s.link.answered 0x83 [0] with softReset := true } } :=
  congrArg Host.Outcome.next (State.take_of_open h rfl (.inr rfl) State.softReset)

/-! ### Allowed lengths (R179) -/

/-- The one payload length that the layout of a request gives; none for TABLE WRITE, which carries records. -/
def RequestKind.fixedLength : RequestKind → Option Nat
  | .ackStart | .status | .softReset | .siteOpen | .siteClose | .turnNow | .egressEnter | .egressResume => some 0
  | .getParam | .cancel | .collect | .screenState | .flowRead => some 1
  | .setParam | .conditionRead => some 3
  | .siteLoad | .siteDump | .condition => some 4
  | .tableRead | .setClock => some 5
  | .route => some 7
  | .tableWrite => none

theorem RequestKind.lengthAllowed_iff {kind : RequestKind} {n : Nat} (fixed : kind.fixedLength = some n)
    (payload : List Byte) : kind.lengthAllowed payload = true ↔ payload.length = n := by
  cases kind with
  | tableWrite => cases fixed
  | _ =>
    cases fixed
    exact decide_eq_true_iff

/-- R168: whole records of the table that is named, and any rest where no table is. -/
theorem RequestKind.lengthAllowed_tableWrite (payload : List Byte) :
    RequestKind.tableWrite.lengthAllowed payload = true ↔ 3 ≤ payload.length ∧ payload.length ≤ 1024 ∧
      ∀ t, TableId.ofCode (byteAt payload 0) = some t → (payload.length - 3) % t.recordBytes = 0 := by
  rw [RequestKind.lengthAllowed, Bool.and_eq_true, Bool.and_eq_true, decide_eq_true_iff, decide_eq_true_iff, and_assoc]
  refine and_congr_right fun _ => and_congr_right fun _ => ?_
  cases TableId.ofCode (byteAt payload 0) with
  | none => simp
  | some table => simp

end Sys2Proof.Machine
end

section

open Sys2Proof Sys2Proof.Machine

/-- Settles O4: SOFT RESET is taken also before ACK START, and what follows it finds no receiver (`State.judge_of_deaf`). -/
theorem softResetIsTakenAndEndsReception : Obligations.SoftResetIsTakenAndEndsReception := by
  refine ⟨fun s h => exec_softReset h, fun c s frame taken => ?_⟩
  have deaf : s.pins.resetAsserted = true ∨ s.link.softReset = true := .inr taken
  rcases frame with whole | ⟨bytes, rfl⟩
  · obtain ⟨dealt, judged⟩ := exec_of_wholeFrame whole s
    rw [judged, State.judge_of_deaf deaf]
  · exact congrArg Host.Outcome.next (State.sync_of_deaf deaf bytes)

/-- Settles O9. -/
theorem notStartedBeforeAckStart : Obligations.NotStartedBeforeAckStart := by
  intro c kind payload s request h startPending allowed notAck notStatus notGet notReset
  have after : kind.beforeAck = false := by
    cases kind with
    | ackStart | status | getParam | softReset => contradiction
    | _ => rfl
  obtain ⟨block, taken⟩ := exec_of_request request s
  rw [taken, State.take_of_notStarted h allowed startPending after, State.refuse_replied _ _ _ (by decide)]
  rfl

/-- Settles O10: the lengths are those of `RequestKind.lengthAllowed`, kind by kind. -/
theorem wrongPayloadLengthIsRefused : Obligations.WrongPayloadLengthIsRefused := by
  refine ⟨fun c kind payload s request h => ?_, fun payload => ?_⟩
  · obtain ⟨block, taken⟩ := exec_of_request request s
    rw [taken]
    refine ⟨fun fits wrong => ?_, fun long => ?_⟩
    · rw [State.take_of_wrongLength h fits wrong, State.refuse_replied _ _ _ (by decide)]
      rfl
    · rw [State.take_of_tooLong s long, State.answerError_of_open h]
      rfl
  · have lengths (kinds : List RequestKind) (n : Nat) (fixed : ∀ kind ∈ kinds, kind.fixedLength = some n) :
        ∀ kind ∈ kinds, kind.lengthAllowed payload = true ↔ payload.length = n :=
      fun kind listed => RequestKind.lengthAllowed_iff (fixed kind listed) payload
    exact ⟨lengths _ 0 (by decide), lengths _ 1 (by decide), lengths _ 3 (by decide), lengths _ 4 (by decide),
      lengths _ 5 (by decide), RequestKind.lengthAllowed_iff rfl payload, RequestKind.lengthAllowed_tableWrite payload⟩

end

section
/-! SUPPORT. Reception byte by byte (R168), the frames answered ERROR, and the busy run of a full reply queue (R169). -/

namespace Sys2Proof.Machine

/-! ### Bytes that join a frame -/

/-- The receiver holds these bytes of a frame, in the state they give. -/
def HostLink.holding (k : HostLink) (frame : List Byte) : HostLink :=
  { k with reception := receptionOf frame, assembled := frame }

section

variable {k : HostLink} {frame : List Byte} {sync lo hi : Byte}

theorem HostLink.holding_self (state : k.reception = receptionOf k.assembled) : k.holding k.assembled = k := by
  rw [HostLink.holding, ← state]

theorem HostLink.holding_eq {reception : Reception} (state : receptionOf frame = reception) :
    k.holding frame = { k with reception := reception, assembled := frame } := by
  rw [HostLink.holding, state]

theorem receptionOf_ne_hunt (frame : List Byte) : receptionOf frame ≠ .hunt := by
  unfold receptionOf
  repeat' split
  all_goals exact Reception.noConfusion

theorem receptionOf_short {kind : Byte} {part : List Byte} (short : part.length < lo.toNat + 256 * hi.toNat) :
    receptionOf (sync :: lo :: hi :: kind :: part) = .payload := by
  have more : part.length + 1 + 1 + 1 + 1 < 4 + (lo.toNat + 256 * hi.toNat) := by omega
  simp [receptionOf, statedLength_of, more]

theorem receptionOf_whole {kind : Byte} {part : List Byte} (whole : part.length = lo.toNat + 256 * hi.toNat) :
    receptionOf (sync :: lo :: hi :: kind :: part) = .check := by
  have all : ¬ part.length + 1 + 1 + 1 + 1 < 4 + (lo.toNat + 256 * hi.toNat) := by omega
  simp [receptionOf, statedLength_of, all]

/-- R168: in HUNT, SYNC begins a frame and starts the gap timer. -/
theorem HostLink.receiveAll_hunt (hunt : k.reception = .hunt) (rest : List Byte) :
    k.receiveAll (0xA5 :: rest) = ({ k with gapTimer := true }.holding [0xA5]).receiveAll rest := by
  have unjudged : k.judgesWith 0xA5 = false := by rw [HostLink.judgesWith, hunt]
  rw [HostLink.receiveAll_taken unjudged, HostLink.receive, if_pos hunt, if_pos rfl]
  rfl

/-- R168: a byte that does not judge the frame joins it. -/
theorem HostLink.receiveAll_joins {b : Byte}
    (unjudged : (k.holding frame).judgesWith b = false) (rest : List Byte) :
    (k.holding frame).receiveAll (b :: rest) = (k.holding (frame ++ [b])).receiveAll rest := by
  have joined : (k.holding frame).receive b = k.holding (frame ++ [b]) := if_neg (receptionOf_ne_hunt frame)
  rw [HostLink.receiveAll_taken unjudged, joined]

theorem HostLink.receiveAll_firstLengthByte (rest : List Byte) :
    (k.holding [sync]).receiveAll (lo :: rest) = (k.holding [sync, lo]).receiveAll rest :=
  HostLink.receiveAll_joins rfl rest

/-- R168: a length above 1024 judges the frame with the second length byte. -/
theorem HostLink.judgesWith_length :
    (k.holding [sync, lo]).judgesWith hi = decide (1024 < lo.toNat + 256 * hi.toNat) := by
  rw [← statedLength_of sync lo hi []]
  rfl

theorem HostLink.receiveAll_longLength (long : 1024 < lo.toNat + 256 * hi.toNat) (rest : List Byte) :
    (k.holding [sync, lo]).receiveAll (hi :: rest) = k.holding [sync, lo] :=
  HostLink.receiveAll_judged (HostLink.judgesWith_length.trans (decide_eq_true long)) rest

theorem HostLink.receiveAll_secondLengthByte (fits : lo.toNat + 256 * hi.toNat ≤ 1024) (rest : List Byte) :
    (k.holding [sync, lo]).receiveAll (hi :: rest) = (k.holding [sync, lo, hi]).receiveAll rest :=
  HostLink.receiveAll_joins (HostLink.judgesWith_length.trans (decide_eq_false (Nat.not_lt.mpr fits))) rest

/-- R168: the check byte judges the frame, so no byte after a whole payload is received. -/
theorem HostLink.receiveAll_check (check : k.reception = .check) (bytes : List Byte) : k.receiveAll bytes = k := by
  cases bytes with
  | nil => rfl
  | cons b rest => exact HostLink.receiveAll_judged (by rw [HostLink.judgesWith, check]) rest

/-- R168: once the length is known, the kind byte and the payload join the frame up to its check. -/
theorem HostLink.receiveAll_append (part rest : List Byte) : ∀ {frame : List Byte}, 3 ≤ frame.length →
    frame.length + part.length ≤ 4 + statedLength frame →
    (k.holding frame).receiveAll (part ++ rest) = (k.holding (frame ++ part)).receiveAll rest := by
  induction part with
  | nil => simp
  | cons b part ih =>
    intro frame stated fits
    rw [List.length_cons] at fits
    have state : receptionOf frame = .kind ∨ receptionOf frame = .payload := by
      unfold receptionOf
      rw [if_neg (by omega)]
      split
      · exact .inl rfl
      · exact .inr (if_pos (by omega))
    have unjudged : (k.holding frame).judgesWith b = false := by
      rcases state with h | h <;> rw [HostLink.judgesWith, HostLink.holding, h]
    have same : statedLength (frame ++ [b]) = statedLength frame := wordAt_one_concat stated b
    rw [List.cons_append, HostLink.receiveAll_joins unjudged, ih (by simp; omega) (by simp [same]; omega),
      List.append_assoc]
    rfl

/-- R168: bytes up to the check, received in KIND or PAYLOAD. -/
theorem HostLink.receiveAll_part {tail part : List Byte} (held : k.assembled = sync :: lo :: hi :: tail)
    (state : k.reception = receptionOf k.assembled) (fits : tail.length + part.length ≤ 1 + (lo.toNat + 256 * hi.toNat)) :
    k.receiveAll part =
      { k with reception := receptionOf (k.assembled ++ part), assembled := k.assembled ++ part } := by
  have received := HostLink.receiveAll_append (k := k) (frame := k.assembled) part [] (by simp [held])
    (by rw [held, statedLength_of]; simp; omega)
  rwa [List.append_nil, HostLink.holding_self state] at received

theorem HostLink.receiveAll_inLength (state : k.reception = .length) (held : k.assembled = [sync]) (rest : List Byte) :
    k.receiveAll (lo :: rest) = (k.holding [sync, lo]).receiveAll rest := by
  have holds : k.holding [sync] = k := held ▸ HostLink.holding_self (by rw [state, held]; rfl)
  exact holds ▸ k.receiveAll_firstLengthByte rest

theorem HostLink.receiveAll_inLength_long (state : k.reception = .length) (held : k.assembled = [sync, lo])
    (long : 1024 < lo.toNat + 256 * hi.toNat) (rest : List Byte) : k.receiveAll (hi :: rest) = k := by
  have holds : k.holding [sync, lo] = k := held ▸ HostLink.holding_self (by rw [state, held]; rfl)
  have judged := k.receiveAll_longLength (sync := sync) long rest
  rwa [holds] at judged

theorem HostLink.receiveAll_inKind {kind : Byte} (state : k.reception = .kind) (held : k.assembled = [sync, lo, hi])
    (part : List Byte) :
    (part.length < lo.toNat + 256 * hi.toNat → k.receiveAll (kind :: part) =
      { k with reception := .payload, assembled := k.assembled ++ kind :: part }) ∧
    (part.length = lo.toNat + 256 * hi.toNat → k.receiveAll (kind :: part) =
      { k with reception := .check, assembled := k.assembled ++ kind :: part }) := by
  have given : k.reception = receptionOf k.assembled := by rw [state, held]; rfl
  have joined : k.assembled ++ kind :: part = sync :: lo :: hi :: kind :: part := by rw [held]; rfl
  refine ⟨fun short => ?_, fun whole => ?_⟩
  · rw [HostLink.receiveAll_part held given (by simp; omega), joined, receptionOf_short short]
  · rw [HostLink.receiveAll_part held given (by simp; omega), joined, receptionOf_whole whole]

theorem HostLink.receiveAll_inPayload {kind : Byte} {before : List Byte} (state : k.reception = .payload)
    (held : k.assembled = sync :: lo :: hi :: kind :: before) {part : List Byte} (some : part ≠ []) :
    (before.length + part.length < lo.toNat + 256 * hi.toNat → k.receiveAll part =
      { k with reception := .payload, assembled := k.assembled ++ part }) ∧
    (before.length + part.length = lo.toNat + 256 * hi.toNat → k.receiveAll part =
      { k with reception := .check, assembled := k.assembled ++ part }) := by
  have more := List.length_pos_of_ne_nil some
  have given (within : before.length < lo.toNat + 256 * hi.toNat) : k.reception = receptionOf k.assembled := by
    rw [state, held, receptionOf_short within]
  have joined : k.assembled ++ part = sync :: lo :: hi :: kind :: (before ++ part) := by rw [held]; rfl
  have length : (before ++ part).length = before.length + part.length := List.length_append
  refine ⟨fun short => ?_, fun whole => ?_⟩
  · rw [HostLink.receiveAll_part held (given (by omega)) (by simp; omega), joined,
      receptionOf_short (length.trans_lt short)]
  · rw [HostLink.receiveAll_part held (given (by omega)) (by simp; omega), joined,
      receptionOf_whole (length.trans whole)]

/-- R168: a frame from its length to the last byte of `part`. -/
theorem HostLink.receiveAll_payload {kind : Byte} {part : List Byte} (allowed : lo.toNat + 256 * hi.toNat ≤ 1024)
    (fits : part.length ≤ lo.toNat + 256 * hi.toNat) (rest : List Byte) :
    (k.holding [sync]).receiveAll (lo :: hi :: kind :: (part ++ rest)) =
      (k.holding (sync :: lo :: hi :: kind :: part)).receiveAll rest := by
  rw [HostLink.receiveAll_firstLengthByte, HostLink.receiveAll_secondLengthByte allowed]
  refine HostLink.receiveAll_append (kind :: part) rest (Nat.le_refl 3) ?_
  rw [statedLength_of]
  simp
  omega

end

/-! ### Frames answered ERROR (R168) -/

theorem byteSum_eq (bytes : List Byte) : byteSum bytes = BitVec.ofNat 8 (bytes.map BitVec.toNat).sum := by
  have from_ (start : Byte) :
      bytes.foldl (· + ·) start = start + BitVec.ofNat 8 (bytes.map BitVec.toNat).sum := by
    induction bytes generalizing start with
    | nil => simp
    | cons b rest ih =>
      rw [List.foldl_cons, ih, List.map_cons, List.sum_cons, BitVec.ofNat_add, BitVec.ofNat_toNat, BitVec.setWidth_eq,
        BitVec.add_assoc]
  exact (from_ 0).trans (BitVec.zero_add _)

theorem byteSum_ne_zero {bytes : List Byte} (sum : (bytes.map BitVec.toNat).sum % 256 ≠ 0) : byteSum bytes ≠ 0 := by
  intro zero
  rw [byteSum_eq] at zero
  exact sum (by simpa using congrArg BitVec.toNat zero)

theorem isRequestKind_eq_false {kind : Byte} (h : kind = 0 ∨ 0x16 < kind.toNat) : isRequestKind kind = false := by
  rcases h with rfl | high
  · rfl
  · simp [isRequestKind]
    omega

theorem exec_frameTimeout {s : State} (gap : s.link.gapTimer = true) (late : Option Byte) :
    exec (.frameTimeout late) s = .next ((s.answerError .frameTimeout).judgeLate late) :=
  congrArg Host.Outcome.next (if_pos gap)

theorem State.judgeLate_of_ne {late : Option Byte} (other : late ≠ some 0xA5) (s : State) : s.judgeLate late = s :=
  if_neg other

/-- R168: a late SYNC begins the next frame. -/
theorem State.judgeLate_sync {s : State} (running : s.Running) (listens : s.link.softReset = false)
    (hunt : s.link.reception = .hunt) : s.judgeLate (some 0xA5) = { s with link :=
      { s.link with reception := .length, assembled := [0xA5], gapTimer := true } } := by
  rw [State.judgeLate, if_pos rfl, State.sync_of_listening running listens, HostLink.receiveAll_hunt hunt]
  rfl

theorem exec_sync {s : State} (running : s.Running) (listens : s.link.softReset = false) (bytes : List Byte) :
    exec (.sync bytes) s = .next { s with link := s.link.receiveAll (0xA5 :: bytes) } :=
  congrArg Host.Outcome.next (State.sync_of_listening running listens bytes)

/-! ### The busy run (R169) -/

/-- R169: by the last entry of the queue. -/
theorem growBusyRun_eq (replies : List ReplyEntry) : growBusyRun replies = match replies.getLast? with
    | some (.busyRun n) => replies.dropLast ++ [.busyRun (if n < 65535 then n + 1 else n)]
    | _ => replies ++ [.busyRun 1] := by
  rcases growBusyRun_cases replies with ⟨init, n, rfl, grown⟩ | ⟨notRun, grown⟩
  · rw [grown, List.getLast?_concat, List.dropLast_concat]
  · rw [grown]
    split
    next n last => exact absurd last (notRun n)
    · rfl

/-- R169: LINK BUSY judges a frame that nothing deals with. -/
theorem exec_linkBusy {s : State} (full : 7 ≤ s.link.replies.length) : exec .linkBusy s = .next (s.judge id) :=
  congrArg Host.Outcome.next (if_pos (decide_eq_true full))

end Sys2Proof.Machine
end

section

open Sys2Proof Sys2Proof.Machine

/-- Settles O7: the bytes after SYNC are received state by state (`HostLink.receiveAll_hunt`, `receiveAll_payload`,
`receiveAll_inLength`, `receiveAll_inKind`, `receiveAll_inPayload`, `receiveAll_check`), and a bad frame is judged. -/
theorem framesBeginAndBadFramesAreAnsweredError : Obligations.FramesBeginAndBadFramesAreAnsweredError := by
  refine ⟨fun s running listens => ?_, fun s h => ⟨fun bytes sum => ?_, fun kind unknown => ?_, fun length long => ?_,
    fun gap => ⟨fun late other => ?_, ?_⟩⟩⟩
  · have received (bytes : List Byte) := exec_sync running listens bytes
    refine ⟨fun hunt => ?_, fun state => ⟨fun held => ?_, fun lo bytes held => ?_⟩,
      fun lo hi state held part => ?_, fun lo hi kind before state held part => ?_, fun bytes check => ?_⟩
    · have begun {bytes : List Byte} {k : HostLink}
          (rest : ({ s.link with gapTimer := true }.holding [0xA5]).receiveAll bytes = k) :
          exec (.sync bytes) s = .next { s with link := k } := by
        rw [received, HostLink.receiveAll_hunt hunt, rest]
      refine ⟨begun rfl, fun lo => ⟨begun (HostLink.receiveAll_firstLengthByte []), fun hi => ⟨fun rest long => ?_,
        fun allowed => ⟨?_, fun kind part rest => ⟨fun short => ?_, fun whole => ?_⟩⟩⟩⟩⟩
      · exact begun ((HostLink.receiveAll_firstLengthByte _).trans (HostLink.receiveAll_longLength long rest))
      · exact begun ((HostLink.receiveAll_firstLengthByte _).trans (HostLink.receiveAll_secondLengthByte allowed []))
      · have joined := HostLink.receiveAll_payload (k := { s.link with gapTimer := true }) (sync := 0xA5) (kind := kind)
          allowed short.le []
        rw [List.append_nil] at joined
        exact begun (joined.trans (HostLink.holding_eq (receptionOf_short short)))
      · refine begun ((HostLink.receiveAll_payload allowed whole.le rest).trans ?_)
        rw [HostLink.holding_eq (receptionOf_whole whole)]
        exact HostLink.receiveAll_check rfl rest
    · rw [received, HostLink.receiveAll_inLength state held]
      rfl
    · have long : 1024 < lo.toNat + 256 * (0xA5 : Byte).toNat := Nat.lt_of_lt_of_le (by decide) (Nat.le_add_left _ _)
      rw [received, HostLink.receiveAll_inLength_long state held long]
    · obtain ⟨short, whole⟩ := HostLink.receiveAll_inKind (kind := 0xA5) state held part
      exact ⟨fun h => by rw [received, short h], fun h => by rw [received, whole h]⟩
    · obtain ⟨short, whole⟩ := HostLink.receiveAll_inPayload (part := 0xA5 :: part) state held nofun
      rw [List.length_cons, Nat.add_comm part.length 1, ← Nat.add_assoc] at short whole
      exact ⟨fun h => by rw [received, short h], fun h => by rw [received, whole h]⟩
    · rw [received, HostLink.receiveAll_check check]
  · rw [exec_badCheck (byteSum_ne_zero sum), State.answerError_of_open h]
    rfl
  · rw [exec_unknownKind (isRequestKind_eq_false unknown), State.answerError_of_open h]
    rfl
  · rw [exec_badLength long, State.answerError_of_open h]
    rfl
  · rw [exec_frameTimeout gap, State.judgeLate_of_ne other, State.answerError_of_open h]
    rfl
  · rw [exec_frameTimeout gap, State.answerError_of_open h]
    exact congrArg Host.Outcome.next (State.judgeLate_sync (s := s.answers 0x80 [7]) h.1 h.2.1 rfl)

/-- Settles O8: whatever is judged, a full queue grows its busy run (`State.judge_of_full`), and the receiver is in HUNT for
a late SYNC. -/
theorem fullReplyQueueCountsBusyReplies : Obligations.FullReplyQueueCountsBusyReplies := by
  intro s running listens full busy
  have judged (dealt : State → State) : s.judge dealt = { s with link := busy } := by
    rw [State.judge_of_full running listens full, growBusyRun_eq]
    rfl
  refine ⟨fun c frame => ?_, fun gap => ?_⟩
  · rcases frame with whole | rfl | ⟨gap, late, other, rfl⟩
    · obtain ⟨dealt, frame⟩ := exec_of_wholeFrame whole s
      rw [frame, judged]
    · rw [exec_linkBusy full, judged]
    · rw [exec_frameTimeout gap, State.judgeLate_of_ne other, State.answerError, judged]
  · rw [exec_frameTimeout gap, State.answerError, judged]
    exact congrArg Host.Outcome.next (State.judgeLate_sync (s := { s with link := busy }) running listens rfl)

end

section
/-! SUPPORT. The notice queue: what an offer does in each of its four cases (R175), what an entry's leaving does (R176), and
the choice at a frame boundary (R170, R171). -/

namespace Sys2Proof.Machine

section

variable {k : HostLink} {n : Notice}

/-! ### Offers (R175) -/

theorem HostLink.offer_disabled (disabled : k.parameters.enables.getLsbD n.number = false) : k.offer n = k := by
  have off : k.enabled n = false := disabled
  rw [HostLink.offer, off, Bool.not_false, if_pos rfl]

theorem Notice.sameKey_iff {m : Notice} :
    m.sameKey n = true ↔ m.number = n.number ∧ m.subject = n.subject := by
  rw [Notice.sameKey, Bool.and_eq_true, decide_eq_true_iff, decide_eq_true_iff]

section

variable (enabled : k.parameters.enables.getLsbD n.number = true)
include enabled

theorem HostLink.offer_enabled : k.offer n =
    if k.notices.any (·.sameKey n) then
      { k with notices := k.notices.map fun m => if m.sameKey n then m.replacedBy n else m }
    else if k.notices.length < 48 then { k with notices := k.notices ++ [n] }
    else { k with overrunMark := true, dropped := min (k.dropped + 1) 255 } := by
  have on : k.enabled n = true := enabled
  rw [HostLink.offer, on, Bool.not_true, if_neg Bool.false_ne_true]

section

variable (other : ∀ m ∈ k.notices, ¬(m.number = n.number ∧ m.subject = n.subject))
include other

theorem HostLink.offer_appended (room : k.notices.length < 48) : k.offer n = { k with notices := k.notices ++ [n] } := by
  have fresh : ¬ k.notices.any (·.sameKey n) = true := by simpa [Notice.sameKey_iff] using other
  rw [HostLink.offer_enabled enabled, if_neg fresh, if_pos room]

theorem HostLink.offer_dropped (full : 48 ≤ k.notices.length) :
    k.offer n = { k with overrunMark := true, dropped := min (k.dropped + 1) 255 } := by
  have fresh : ¬ k.notices.any (·.sameKey n) = true := by simpa [Notice.sameKey_iff] using other
  rw [HostLink.offer_enabled enabled, if_neg fresh, if_neg (Nat.not_lt.mpr full)]

end

/-- R175: the content of a later notice goes to the place of the queued one of its key. -/
theorem HostLink.offer_replaced {before after : List Notice} {m : Notice} (queue : k.notices = before ++ m :: after)
    (number : m.number = n.number) (subject : m.subject = n.subject)
    (other : ∀ x ∈ before ++ after, ¬(x.number = n.number ∧ x.subject = n.subject)) :
    k.offer n = { k with notices := before ++ m.replacedBy n :: after } := by
  have same : m.sameKey n = true := Notice.sameKey_iff.mpr ⟨number, subject⟩
  have listed : k.notices.any (·.sameKey n) = true := List.any_eq_true.mpr ⟨m, by simp [queue], same⟩
  have kept (part : List Notice) (within : part ⊆ before ++ after) :
      (part.map fun x => if x.sameKey n then x.replacedBy n else x) = part :=
    (List.map_congr_left fun x hx => if_neg (mt Notice.sameKey_iff.mp (other x (within hx)))).trans (List.map_id part)
  rw [HostLink.offer_enabled enabled, if_pos listed, queue, List.map_append, List.map_cons, if_pos same,
    kept before (List.subset_append_left _ _), kept after (List.subset_append_right _ _)]

end

/-- An offer puts no notice of another kind into the queue. -/
theorem HostLink.number_of_mem_offer {m : Notice} (listed : m ∈ (k.offer n).notices) :
    m.number = n.number ∨ ∃ x ∈ k.notices, m.number = x.number := by
  unfold HostLink.offer at listed
  split at listed
  · exact .inr ⟨m, listed, rfl⟩
  · split at listed
    · obtain ⟨x, hx, rfl⟩ := List.mem_map.mp listed
      refine .inr ⟨x, hx, ?_⟩
      split
      next same => exact congrArg Prod.fst (Notice.key_replacedBy same)
      · rfl
    · split at listed
      · rcases List.mem_append.mp listed with queued | appended
        · exact .inr ⟨m, queued, rfl⟩
        · exact .inl (congrArg Notice.number (List.mem_singleton.mp appended))
      · exact .inr ⟨m, listed, rfl⟩

/-! ### OVERRUN (R176) -/

/-- What the queue is after an OVERRUN of this count, offered with room in it: as it was when the kind is disabled, with
OVERRUN at its end, or with the count added to the one that is queued. -/
structure HostLink.OverrunEnters (k : HostLink) (count : Nat) (queue : List Notice) : Prop where
  disabled : k.parameters.enables.getLsbD 12 = false → queue = k.notices
  appended : k.parameters.enables.getLsbD 12 = true → (∀ m ∈ k.notices, m.number ≠ 12) →
    queue = k.notices ++ [.overrun count]
  added : k.parameters.enables.getLsbD 12 = true → ∀ before queued after,
    k.notices = before ++ .overrun queued :: after → (∀ m ∈ before ++ after, m.number ≠ 12) →
    queue = before ++ .overrun (min (queued + count) 255) :: after

theorem HostLink.offer_overrun (room : k.notices.length < 48) (count : Nat) :
    k.OverrunEnters count (k.offer (.overrun count)).notices where
  disabled off := by rw [HostLink.offer_disabled (n := .overrun count) off]
  appended enabled absent := by
    rw [HostLink.offer_appended (n := .overrun count) enabled (fun m hm same => absent m hm same.1) room]
  added enabled before queued after queue other := by
    rw [HostLink.offer_replaced (n := .overrun count) enabled queue rfl rfl fun x hx same => other x hx same.1]
    rfl

theorem HostLink.entryLeft_unmarked (unmarked : k.overrunMark = false) : k.entryLeft = k :=
  if_neg (Bool.eq_false_iff.mp unmarked)

theorem HostLink.entryLeft_marked (marked : k.overrunMark = true) :
    k.entryLeft = HostLink.offer (.overrun k.dropped) { k with overrunMark := false, dropped := 0 } := if_pos marked

/-- R176: with room in the queue OVERRUN is not dropped, so the mark and the count stay cleared. -/
theorem HostLink.offer_of_room (room : k.notices.length < 48) :
    k.offer n = { k with notices := (k.offer n).notices } := by
  unfold HostLink.offer
  split
  · rfl
  · split
    · rfl
    · rfl

theorem HostLink.entryLeft_room (marked : k.overrunMark = true) (room : k.notices.length < 48) :
    k.entryLeft = { k with notices := k.entryLeft.notices, overrunMark := false, dropped := 0 } := by
  rw [HostLink.entryLeft_marked marked]
  exact HostLink.offer_of_room (k := { k with overrunMark := false, dropped := 0 }) room

theorem HostLink.entryLeft_overrun (marked : k.overrunMark = true) (room : k.notices.length < 48) :
    k.OverrunEnters k.dropped k.entryLeft.notices := by
  obtain ⟨disabled, appended, added⟩ :=
    HostLink.offer_overrun (k := { k with overrunMark := false, dropped := 0 }) room k.dropped
  rw [HostLink.entryLeft_marked marked]
  exact ⟨disabled, appended, added⟩

/-! ### START (R171) -/

theorem Notice.start_not_mem_filter (notices : List Notice) {m : Notice}
    (listed : m ∈ notices.filter fun x => x.number ≠ 0) : m.number ≠ 0 := by
  simpa using (List.mem_filter.mp listed).2

theorem HostLink.removeStart_absent (absent : ∀ m ∈ k.notices, m.number ≠ 0) : k.removeStart = k :=
  if_neg (by simpa using absent)

theorem HostLink.removeStart_present (start : ∃ m ∈ k.notices, m.number = 0) : k.removeStart =
    ({ k with notices := k.notices.filter fun m => m.number ≠ 0 } : HostLink).entryLeft :=
  if_pos (by simpa using start)

/-- R171: whatever the consequence of its leaving, no START is left in the queue. -/
theorem HostLink.removeStart_notices {m : Notice} (listed : m ∈ k.removeStart.notices) : m.number ≠ 0 := by
  by_cases start : ∃ m ∈ k.notices, m.number = 0
  · rw [HostLink.removeStart_present start, HostLink.entryLeft] at listed
    split at listed
    · rcases HostLink.number_of_mem_offer listed with overrun | ⟨x, hx, same⟩
      · rw [overrun]
        exact Nat.succ_ne_zero 11
      · exact same ▸ Notice.start_not_mem_filter _ hx
    · exact Notice.start_not_mem_filter _ listed
  · have absent : ∀ m ∈ k.notices, m.number ≠ 0 := fun m hm zero => start ⟨m, hm, zero⟩
    rw [HostLink.removeStart_absent absent] at listed
    exact absent m listed

/-- R171: without the overrun mark, or with no START in the queue, nothing enters for it. -/
theorem HostLink.removeStart_filters (h : k.overrunMark = false ∨ ∀ m ∈ k.notices, m.number ≠ 0) :
    k.removeStart = { k with notices := k.notices.filter fun m => m.number ≠ 0 } := by
  by_cases start : ∃ m ∈ k.notices, m.number = 0
  · have unmarked := h.resolve_right fun absent => start.elim fun m present => absent m present.1 present.2
    exact (HostLink.removeStart_present start).trans (HostLink.entryLeft_unmarked unmarked)
  · have absent : ∀ m ∈ k.notices, m.number ≠ 0 := fun m hm zero => start ⟨m, hm, zero⟩
    rw [HostLink.removeStart_absent absent, List.filter_eq_self.mpr fun m hm => decide_eq_true (absent m hm)]

/-- R176: the START that leaves a queue of 48 at most makes room for OVERRUN. -/
theorem HostLink.removeStart_overrun (start : ∃ m ∈ k.notices, m.number = 0) (marked : k.overrunMark = true)
    (most : k.notices.length ≤ 48) :
    k.removeStart.overrunMark = false ∧ k.removeStart.dropped = 0 ∧
      ({ k with notices := k.notices.filter fun m => m.number ≠ 0 } : HostLink).OverrunEnters k.dropped
        k.removeStart.notices := by
  obtain ⟨m, hm, zero⟩ := start
  have room : (k.notices.filter fun m => m.number ≠ 0).length < 48 :=
    (List.length_filter_lt_length_iff_exists.mpr ⟨m, hm, by simpa using zero⟩).trans_le most
  rw [HostLink.removeStart_present ⟨m, hm, zero⟩]
  have left := HostLink.entryLeft_room (k := { k with notices := k.notices.filter fun m => m.number ≠ 0 }) marked room
  exact ⟨left ▸ rfl, left ▸ rfl, HostLink.entryLeft_overrun marked room⟩

/-- Removing a START writes the notice queue, the overrun mark and the count, and nothing else. -/
theorem HostLink.removeStart_frame (k : HostLink) : ∃ notices mark count,
    k.removeStart = { k with notices := notices, overrunMark := mark, dropped := count } := by
  unfold HostLink.removeStart
  split
  · unfold HostLink.entryLeft
    split
    · obtain ⟨notices, mark, count, eq⟩ := HostLink.offer_frame
        { k with notices := k.notices.filter fun m => m.number ≠ 0, overrunMark := false, dropped := 0 }
        (.overrun k.dropped)
      exact ⟨notices, mark, count, eq⟩
    · exact ⟨_, _, _, rfl⟩
  · exact ⟨k.notices, k.overrunMark, k.dropped, rfl⟩

theorem exec_ackStart_already {s : State} (h : s.Open) (acknowledged : s.link.startPending = false) :
    exec (.ackStart []) s = .next (s.answers 0x81 [3]) := by
  have already : s.hunting.ackStart = refuse s.hunting .already := if_neg (Bool.eq_false_iff.mp acknowledged)
  change Host.Outcome.next (s.take _ _ _) = _
  rw [State.take_of_open h rfl (.inl acknowledged), already]
  rfl

/-- R171: the link with the frame taken, and the flag and the repeat timer cleared. -/
def HostLink.acknowledged (k : HostLink) : HostLink := { k.toHunt with startPending := false, repeatTimer := false }

theorem exec_ackStart {s : State} (h : s.Open) (startPending : s.link.startPending = true) :
    exec (.ackStart []) s =
      .next { s with link := s.link.acknowledged.removeStart.append { kind := 0x81, payload := [0] } } := by
  have accepted : s.hunting.ackStart = accept { s.hunting with link := s.link.acknowledged.removeStart } :=
    if_pos startPending
  change Host.Outcome.next (s.take _ _ _) = _
  rw [State.take_of_open h rfl (.inr rfl), accepted]
  rfl

theorem exec_startRepeatTimerExpiry {s : State} (running : s.Running) (timer : s.link.repeatTimer = true)
    (startPending : s.link.startPending = true) : exec .startRepeatTimerExpiry s =
      .next { s with link := HostLink.offer (.start s.link.resetKind) { s.link with repeatTimer := false } } := by
  have repeats : (s.link.repeatTimer && s.link.startPending) = true := by rw [timer, startPending]; rfl
  exact congrArg Host.Outcome.next ((State.event_of_running running _).trans (if_pos repeats))

/-! ### The choice at a frame boundary (R170) -/

/-- R171: a START sent while the flag is set starts the repeat timer. -/
theorem HostLink.sent_eq : k.sent = { k with
    repeatTimer := k.repeatTimer || (k.startPending && decide (k.sending.map Frame.kind = some 0xC0)) } := by
  have started (start : Bool) : (if start then { k with repeatTimer := true } else k) =
      { k with repeatTimer := k.repeatTimer || start } := by
    cases start with
    | true => rw [Bool.or_true, if_pos rfl]
    | false => rw [Bool.or_false, if_neg Bool.false_ne_true]
  rw [← started]
  unfold HostLink.sent
  split
  next f sending => simp [sending, Bool.and_comm]
  next sending => simp [sending]

theorem HostLink.choose_reply {f : Frame} {rest : List ReplyEntry} (front : k.replies = .reply f :: rest) :
    k.choose = { k with replies := rest, sending := some f } := by
  rw [HostLink.choose, front, takeReply]

theorem HostLink.choose_busyRun {count : Nat} {rest : List ReplyEntry} (front : k.replies = .busyRun count :: rest) :
    k.choose = { k with
      replies := if count ≤ 1 then rest else .busyRun (count - 1) :: rest
      sending := some { kind := 0x80, payload := [26] } } := by
  rw [HostLink.choose, front, takeReply]
  rfl

theorem HostLink.choose_idle (empty : k.replies = []) (quiet : k.notices = [] ∨ k.softReset = true) :
    k.choose = { k with sending := none } := by
  rw [HostLink.choose, empty, takeReply]
  dsimp only
  split
  · rfl
  next queue => rw [if_pos (quiet.resolve_left (queue ▸ nofun))]

theorem HostLink.choose_notice {rest : List Notice} (empty : k.replies = []) (listens : k.softReset = false)
    (head : k.notices = n :: rest) :
    k.choose = ({ k with notices := rest, sending := some n.frame } : HostLink).entryLeft := by
  rw [HostLink.choose, empty, takeReply, head]
  exact if_neg (Bool.eq_false_iff.mp listens)

theorem HostLink.choose_notice_unmarked {rest : List Notice} (empty : k.replies = []) (listens : k.softReset = false)
    (head : k.notices = n :: rest) (unmarked : k.overrunMark = false) :
    k.choose = { k with notices := rest, sending := some n.frame } :=
  (HostLink.choose_notice empty listens head).trans (HostLink.entryLeft_unmarked unmarked)

theorem exec_frameBoundary {s : State} (running : s.Running) :
    exec .frameBoundary s = .next { s with link := s.link.sent.choose } :=
  congrArg Host.Outcome.next (State.event_of_running running _)

end

end Sys2Proof.Machine
end

section

open Sys2Proof Sys2Proof.Machine

/-- Settles O13: the four cases of an offer, the content of the replaced notice being `Notice.replacedBy`. -/
theorem noticesAreQueuedByKindAndSubject : Obligations.NoticesAreQueuedByKindAndSubject := by
  refine fun k n => ⟨HostLink.offer_disabled, fun enabled other => ⟨HostLink.offer_appended enabled other,
    HostLink.offer_dropped enabled other⟩, fun enabled before m after queue number subject other => ?_⟩
  rw [HostLink.offer_replaced enabled queue number subject other]
  cases m with
  | overrun queued => cases n <;> rfl
  | _ => rfl

/-- Settles O11: the frame that has been sent is `HostLink.sent_eq`, the next one is chosen by the front of the queues. -/
theorem frameBoundarySendsRepliesFirst : Obligations.FrameBoundarySendsRepliesFirst := by
  intro s running timer
  rw [exec_frameBoundary running, HostLink.sent_eq]
  refine ⟨fun f rest front => ?_, fun count rest front => ?_, fun empty quiet => ?_,
    fun n rest empty listens head unmarked => ?_⟩
  · rw [HostLink.choose_reply (k := { s.link with repeatTimer := timer }) front]
  · rw [HostLink.choose_busyRun (k := { s.link with repeatTimer := timer }) front]
  · rw [HostLink.choose_idle (k := { s.link with repeatTimer := timer }) empty quiet]
  · rw [HostLink.choose_notice_unmarked (k := { s.link with repeatTimer := timer }) empty listens head unmarked]

/-- Settles O12: the head notice leaves room in the queue, in which OVERRUN enters (`HostLink.entryLeft_overrun`). -/
theorem overrunIsOfferedWhenRoomAppears : Obligations.OverrunIsOfferedWhenRoomAppears := by
  intro s n rest running empty listens head room marked
  let timer := s.link.repeatTimer || (s.link.startPending && decide (s.link.sending.map Frame.kind = some 0xC0))
  let left : HostLink := { s.link with repeatTimer := timer, notices := rest, sending := some n.frame }
  have enters : left.OverrunEnters s.link.dropped left.entryLeft.notices := HostLink.entryLeft_overrun marked room
  have next : exec .frameBoundary s = .next { s with link := { left with
      notices := left.entryLeft.notices, overrunMark := false, dropped := 0 } } := by
    rw [exec_frameBoundary running, HostLink.sent_eq,
      HostLink.choose_notice (k := { s.link with repeatTimer := timer }) empty listens head,
      ← HostLink.entryLeft_room (k := left) marked room]
  exact ⟨_, next, rfl, rfl, rfl, enters.disabled, enters.appended, enters.added, rfl⟩

/-- Settles O14: ACK START is `HostLink.removeStart` of the link with flag and timer cleared. -/
theorem ackStartEndsTheStart : Obligations.AckStartEndsTheStart := by
  refine ⟨fun s h acknowledged => exec_ackStart_already h acknowledged, fun s h startPending => ?_,
    fun s running timer startPending => exec_startRepeatTimerExpiry running timer startPending⟩
  let k := s.link.acknowledged
  obtain ⟨notices, mark, count, frame⟩ := k.removeStart_frame
  have filters : (s.link.overrunMark = false ∨ ∀ n ∈ s.link.notices, n.number ≠ 0) → k.removeStart =
      { k with notices := s.link.notices.filter fun n => n.number ≠ 0 } := HostLink.removeStart_filters (k := k)
  refine ⟨_, exec_ackStart h startPending, ?_, ?_, fun n => HostLink.removeStart_notices (k := k), fun unmarked => ?_,
    fun without => ?_, fun start listed zero marked most => ?_, ?_⟩
  · exact congrArg HostLink.startPending frame
  · exact congrArg HostLink.repeatTimer frame
  · exact congrArg HostLink.notices (filters (.inl unmarked))
  · change k.removeStart.notices = _ ∧ k.removeStart.overrunMark = _ ∧ k.removeStart.dropped = _
    rw [filters without]
    exact ⟨rfl, rfl, rfl⟩
  · obtain ⟨cleared, zeroed, enters⟩ := HostLink.removeStart_overrun (k := k) ⟨start, listed, zero⟩ marked most
    exact ⟨cleared, zeroed, enters.disabled, enters.appended, enters.added⟩
  · dsimp only
    rw [frame]
    rfl

end

section
/-! SUPPORT. The parameters and their codes, SET PARAM and GET PARAM (R174), and the level of ALERT (R177). -/

namespace Sys2Proof.Machine

/-! ### Codes and values (R174) -/

theorem AlertSource.code_of_listed {source : AlertSource} {v : Nat}
    (listed : [AlertSource.egress, .anyCrowded, .siteNotValid, .startPending, .noticeBacklog, .fixedLow,
      .fixedHigh][v]? = some source) : AlertSource.ofCode v = some source ∧ source.code = v := by
  match v, listed with
  | 0, rfl | 1, rfl | 2, rfl | 3, rfl | 4, rfl | 5, rfl | 6, rfl => exact ⟨rfl, rfl⟩

theorem AlertSource.ofCode_of_le {v : Nat} (beyond : 7 ≤ v) : AlertSource.ofCode v = none := by
  match v, beyond with
  | v + 7, _ => rfl

theorem AlertPolarity.code_of_listed {polarity : AlertPolarity} {v : Nat}
    (listed : [AlertPolarity.activeHigh, .activeLow][v]? = some polarity) :
    AlertPolarity.ofCode v = some polarity ∧ polarity.code = v := by
  match v, listed with
  | 0, rfl | 1, rfl => exact ⟨rfl, rfl⟩

theorem AlertPolarity.ofCode_of_le {v : Nat} (beyond : 2 ≤ v) : AlertPolarity.ofCode v = none := by
  match v, beyond with
  | v + 2, _ => rfl

/-- R174: there are six parameters. -/
theorem Parameters.value_unknown (p : Parameters) {number : Nat} (unknown : number = 0 ∨ 6 < number) :
    p.value number = none := by
  match number, unknown with
  | 0, _ => rfl
  | n + 7, _ => rfl

/-- R174: the enables word keeps its thirteen enables, START's being set. -/
theorem enables_getLsbD (v n : Nat) :
    (BitVec.ofNat 13 v ||| 1).getLsbD n = (decide (n < 13) && v.testBit n || decide (n = 0)) := by
  rw [BitVec.getLsbD_or, BitVec.getLsbD_ofNat, BitVec.ofNat_eq_ofNat, BitVec.getLsbD_one]
  simp

/-! ### SET PARAM and GET PARAM (R174) -/

section

variable {s : State} {number v : Nat}

theorem exec_setParam (h : s.Started) (hn : number < 256) (hv : v < 65536) :
    exec (.setParam (le8 number ++ le16 v)) s = .next ((s.hunting.setParam number v).replied .setParam) := by
  have first : byteAt (le8 number ++ le16 v) 0 = number := byteAt_le8 hn _
  have second : wordAt (le8 number ++ le16 v) 1 = v := by
    rw [← List.append_nil (le16 v)]
    exact wordAt_le16 hv []
  change Host.Outcome.next (s.take _ _ _) = _
  rw [State.take_of_started h rfl, first, second]

theorem exec_setParam_unknown (h : s.Started) (hn : number < 256) (hv : v < 65536) (unknown : number = 0 ∨ 6 < number) :
    exec (.setParam (le8 number ++ le16 v)) s = .next (s.answers 0x84 [19]) := by
  have refused : s.hunting.setParam number v = refuse s.hunting .badTarget := by
    rw [State.setParam, Parameters.value_unknown _ unknown]
  rw [exec_setParam h hn hv, refused]
  rfl

theorem exec_setParam_refused (h : s.Started) (hn : number < 256) (hv : v < 65536) {held : Nat}
    (known : s.link.parameters.value number = some held) (value : s.link.parameters.withValue number v = none) :
    exec (.setParam (le8 number ++ le16 v)) s = .next (s.answers 0x84 [21]) := by
  have refused : s.hunting.setParam number v = refuse s.hunting .badValue := by
    rw [State.setParam, State.hunting_link, HostLink.toHunt_parameters, known]
    dsimp only
    rw [value]
  rw [exec_setParam h hn hv, refused]
  rfl

theorem exec_setParam_stored (h : s.Started) (hn : number < 256) (hv : v < 65536) {held stored : Nat} {p : Parameters}
    (known : s.link.parameters.value number = some held) (value : s.link.parameters.withValue number v = some p)
    (now : p.value number = some stored) :
    exec (.setParam (le8 number ++ le16 v)) s = .next { s with link :=
      { s.link.answered 0x84 (0 :: (le8 number ++ le16 stored)) with parameters := p } } := by
  have accepted : s.hunting.setParam number v =
      { code := .ok, data := le8 number ++ le16 stored, state := s.hunting.setParameters p } := by
    rw [State.setParam, State.hunting_link, HostLink.toHunt_parameters, known]
    dsimp only
    rw [value]
    dsimp only
    rw [Parameters.report, now]
    rfl
  rw [exec_setParam h hn hv, accepted]
  rfl

theorem exec_getParam (h : s.Open) (b : Byte) :
    exec (.getParam [b]) s = .next ((s.hunting.getParam b.toNat).replied .getParam) := by
  change Host.Outcome.next (s.take _ _ _) = _
  rw [State.take_of_open h rfl (.inr rfl), byteAt_cons_zero]

theorem exec_getParam_held (h : s.Open) {b : Byte} {held : Nat} (known : s.link.parameters.value b.toNat = some held) :
    exec (.getParam [b]) s = .next (s.answers 0x85 (0 :: (le8 b.toNat ++ le16 held))) := by
  have answered : s.hunting.getParam b.toNat =
      { code := .ok, data := le8 b.toNat ++ le16 held, state := s.hunting } := by
    rw [State.getParam, Parameters.report, State.hunting_link, HostLink.toHunt_parameters, known]
    rfl
  rw [exec_getParam h, answered]
  rfl

theorem exec_getParam_unknown (h : s.Open) {b : Byte} (unknown : b.toNat = 0 ∨ 6 < b.toNat) :
    exec (.getParam [b]) s = .next (s.answers 0x85 [19]) := by
  have refused : s.hunting.getParam b.toNat = refuse s.hunting .badTarget := by
    rw [State.getParam, Parameters.value_unknown _ unknown]
  rw [exec_getParam h, refused]
  rfl

/-! ### ALERT (R177) -/

theorem State.alert_of_reset (asserted : s.pins.resetAsserted = true) : s.alert = false := if_pos asserted

theorem State.alert_of_running (running : s.Running) : s.alert = match s.link.parameters.alertSource with
    | .fixedLow => false
    | .fixedHigh => true
    | source => match s.link.parameters.alertPolarity with
      | .activeHigh => s.alertCondition source
      | .activeLow => !s.alertCondition source := if_neg (Bool.eq_false_iff.mp running)

/-- R177: ALERT is asserted while the condition of its source holds; FIXED_LOW and FIXED_HIGH are levels. -/
theorem State.alert_iff (running : s.Running) {source : AlertSource} {condition : Prop}
    (selected : s.link.parameters.alertSource = source) (low : source ≠ .fixedLow) (high : source ≠ .fixedHigh)
    (holds : s.alertCondition source = true ↔ condition) :
    s.alert = true ↔ (condition ↔ s.link.parameters.alertPolarity = .activeHigh) := by
  have level : s.alert = match s.link.parameters.alertPolarity with
      | .activeHigh => s.alertCondition source
      | .activeLow => !s.alertCondition source := by
    rw [State.alert_of_running running, selected]
    cases source with
    | fixedLow => exact absurd rfl low
    | fixedHigh => exact absurd rfl high
    | _ => rfl
  rw [level, ← holds]
  cases s.link.parameters.alertPolarity with
  | activeHigh => simp
  | activeLow => simp

theorem State.anyCrowded_iff : s.anyCrowded = true ↔ ∃ c, c < 64 ∧ s.published c = .crowded := by
  simp [State.anyCrowded, Config.channels]

end

end Sys2Proof.Machine
end

section

open Sys2Proof Sys2Proof.Machine

/-- Settles O17: a parameter is set when `Parameters.withValue` gives one, and answered by its new value. -/
theorem setParamStoresWithinRange : Obligations.SetParamStoresWithinRange := by
  intro s v h hv
  refine ⟨exec_setParam_stored h (by decide) hv rfl rfl rfl, exec_setParam_stored h (by decide) hv rfl rfl rfl,
    exec_setParam_stored h (by decide) hv rfl rfl rfl, ⟨BitVec.ofNat 13 v ||| 1, ?_, fun n positive within => ?_,
      exec_setParam_stored h (by decide) hv rfl rfl rfl⟩, fun source listed => ?_, fun beyond => ?_,
    fun polarity listed => ?_, fun beyond => ?_, fun number unknown hn => exec_setParam_unknown h hn hv unknown⟩
  · rw [enables_getLsbD, decide_eq_true rfl, Bool.or_true]
  · rw [enables_getLsbD, decide_eq_true within, decide_eq_false (Nat.ne_of_gt positive), Bool.true_and, Bool.or_false]
  · obtain ⟨named, code⟩ := AlertSource.code_of_listed listed
    exact exec_setParam_stored h (by decide) hv rfl (congrArg (Option.map _) named) (congrArg some code)
  · exact exec_setParam_refused h (by decide) hv rfl (congrArg (Option.map _) (AlertSource.ofCode_of_le beyond))
  · obtain ⟨named, code⟩ := AlertPolarity.code_of_listed listed
    exact exec_setParam_stored h (by decide) hv rfl (congrArg (Option.map _) named) (congrArg some code)
  · exact exec_setParam_refused h (by decide) hv rfl (congrArg (Option.map _) (AlertPolarity.ofCode_of_le beyond))

/-- Settles O18: GET PARAM is among the requests taken before ACK START. -/
theorem getParamReportsTheValueHeld : Obligations.GetParamReportsTheValueHeld := by
  intro s h
  refine ⟨exec_getParam_held h rfl, exec_getParam_held h rfl, exec_getParam_held h rfl, exec_getParam_held h rfl,
    ?_, ?_, fun number unknown => exec_getParam_unknown h (unknown.imp_left (congrArg BitVec.toNat))⟩
  · rw [exec_getParam_held h (b := 5) rfl]
    cases s.link.parameters.alertSource <;> rfl
  · rw [exec_getParam_held h (b := 6) rfl]
    cases s.link.parameters.alertPolarity <;> rfl

/-- Settles O6: `State.alert_iff`, with the condition of each source. -/
theorem alertFollowsItsSource : Obligations.AlertFollowsItsSource := by
  refine ⟨fun s asserted => State.alert_of_reset asserted, fun s running => ?_⟩
  refine ⟨fun low => ?_, fun high => ?_, fun egress => ?_, fun crowded => ?_, fun site => ?_, fun start => ?_,
    fun backlog => ?_⟩
  · rw [State.alert_of_running running, low]
  · rw [State.alert_of_running running, high]
  · exact State.alert_iff running egress nofun nofun decide_eq_true_iff
  · exact State.alert_iff running crowded nofun nofun State.anyCrowded_iff
  · exact State.alert_iff running site nofun nofun decide_eq_true_iff
  · exact State.alert_iff running start nofun nofun Iff.rfl
  · exact State.alert_iff running backlog nofun nofun decide_eq_true_iff

end

section
/-! SUPPORT. The commands that wait: no block of the part writes the queue that `step` takes its commands from, so every
command leaves it as it is. -/

namespace Sys2Proof.Machine

/-- A fold of steps that leave the queue leaves the queue. -/
theorem pending_foldl {α : Type} {f : State → α → State} (h : ∀ s x, (f s x).pending = s.pending) (l : List α)
    (s : State) : (l.foldl f s).pending = s.pending :=
  List.foldlRecOn l f (motive := fun t => t.pending = s.pending) rfl fun t kept x _ => (h t x).trans kept

section

variable (s : State)

/-! ### The lanes and the Result Store (R60 to R63, R76 to R82) -/

theorem State.askSlot_pending (l : Nat) (r : RouteRecord) : (s.askSlot l r).pending = s.pending := by
  rw [s.askSlot_frame]

theorem State.grantSlot_pending (n : Nat) : (s.grantSlot n).pending = s.pending := by
  unfold State.grantSlot
  split
  · rfl
  · split <;> rfl

theorem State.freeSlot_pending (n screen : Nat) : (s.freeSlot n screen).pending = s.pending := by
  rw [s.freeSlot_frame]

theorem State.completeSearch_pending (l : Nat) (r : Request) (ctx : SearchContext) :
    (s.completeSearch l r ctx).pending = s.pending := by
  unfold State.completeSearch
  dsimp only
  split <;> exact State.askSlot_pending _ _ _

theorem State.recordComplete_pending (l : Nat) : (s.recordComplete l).pending = s.pending := by
  unfold State.recordComplete
  dsimp only
  split
  · split
    · exact s.completeSearch_pending _ _ _
    · rfl
  · rfl

theorem State.slotGrant_pending : s.slotGrant.pending = s.pending := by
  unfold State.slotGrant
  split
  · exact s.grantSlot_pending _
  · rfl

theorem State.holdExpiry_pending (n : Nat) : (s.holdExpiry n).pending = s.pending := by
  unfold State.holdExpiry
  split
  · rfl
  · exact State.freeSlot_pending _ _ _

theorem State.collect_pending (screen : Nat) : (s.collect screen).state.pending = s.pending := by
  unfold State.collect
  split
  · rfl
  · split
    · split
      · exact s.freeSlot_pending _ _
      · rfl
    · rfl

/-! ### The Request Dispatcher (R88 to R97) -/

theorem State.route_pending (r : Request) : (s.route r).state.pending = s.pending := by
  unfold State.route
  split <;> rfl

theorem State.grantEntry_pending (l place : Nat) : (s.grantEntry l place).pending = s.pending := by
  unfold State.grantEntry
  split
  · rfl
  · dsimp only
    rw [State.startSearch_frame]
    rfl

theorem State.grant_pending : s.grant.pending = s.pending := by
  unfold State.grant
  split
  · split
    · exact s.grantEntry_pending _ _
    · rfl
  · rfl

theorem State.cancel_pending (screen : Nat) : (s.cancel screen).state.pending = s.pending := by
  unfold State.cancel
  split
  · rfl
  · split
    case h_4 => exact s.freeSlot_pending _ _
    all_goals rfl

theorem State.foldl_drop_pending (reason : DropReason) (requests : List Request) :
    (requests.foldl (State.drop reason) s).pending = s.pending :=
  pending_foldl (f := State.drop reason) (fun _ _ => rfl) requests s

theorem State.dropQueue_pending : s.dropQueue.pending = s.pending := s.foldl_drop_pending .site _

theorem State.requeue_pending (requests : List Request) : (s.requeue requests).pending = s.pending :=
  pending_foldl (f := fun s (r : Request) => s.setScreen r.screen .queued) (fun _ _ => rfl) requests s

theorem State.trimQueue_pending : s.trimQueue.pending = s.pending := s.foldl_drop_pending .mode _

theorem State.takeBack_pending (requests : List Request) : (s.takeBack requests).pending = s.pending := by
  unfold State.takeBack
  split
  · dsimp only
    rw [State.trimQueue_pending, State.requeue_pending, State.foldl_drop_pending]
  · exact s.foldl_drop_pending .site requests

theorem State.handBack_pending : s.handBack.pending = s.pending :=
  (State.takeBack_pending _ _).trans (pending_foldl (f := State.withdraw) (fun _ _ => rfl) s.workingLanes s)

/-! ### Offers, turns and the clock (R103 to R111, R138 to R145) -/

theorem State.OffersOnly.pending {s t : State} (h : s.OffersOnly t) : t.pending = s.pending := by
  obtain ⟨_, _, _, _, _, rfl⟩ := h
  rfl

theorem State.applyTurn_pending (cause : TurnCause) : (s.applyTurn cause).pending = s.pending := by
  obtain ⟨_, _, _, _, _, _, _, _, turned⟩ := s.applyTurn_frame cause
  rw [turned]

theorem State.beginTurn_pending (cause : TurnCause) : (s.beginTurn cause).pending = s.pending := by
  unfold State.beginTurn
  split
  · rfl
  · exact s.applyTurn_pending cause

theorem State.askTurn_pending (cause : TurnCause) : (s.askTurn cause).pending = s.pending := by
  obtain ⟨_, _, _, _, _, asked⟩ := s.askTurn_frame cause
  rw [asked]

theorem State.turnNow_pending : s.turnNow.state.pending = s.pending := by
  unfold State.turnNow
  split
  · rfl
  · split
    · rfl
    · split
      · exact s.beginTurn_pending .request
      · rfl

theorem State.turnTimerExpiry_pending : s.turnTimerExpiry.pending = s.pending := by
  unfold State.turnTimerExpiry
  split
  · rfl
  · exact State.askTurn_pending _ .timer

theorem State.applyStep_pending : s.applyStep.pending = s.pending := by
  unfold State.applyStep
  split
  · split
    · rfl
    · exact s.applyTurn_pending _
  · rfl

theorem State.condition_pending (target : Option Target) (value : Nat) :
    (s.condition target value).state.pending = s.pending := by
  unfold State.condition
  repeat' split
  all_goals rfl

theorem State.setClock_pending (second day : Nat) : (s.setClock second day).state.pending = s.pending := by
  unfold State.setClock
  split
  · rfl
  · dsimp only [accept]
    split
    · exact (State.askTurn_pending _ .schedule).trans (State.catchUp_offersOnly _).pending
    · rfl

theorem State.minuteBoundary_pending : s.minuteBoundary.pending = s.pending := by
  unfold State.minuteBoundary
  split
  · dsimp only
    split
    · exact (State.offerEntries_offersOnly _ _).pending
    · rfl
  · rfl

/-! ### The Flow Monitor (R119 to R134) -/

theorem State.sampleTimerExpiry_pending : s.sampleTimerExpiry.pending = s.pending := by
  unfold State.sampleTimerExpiry
  split
  · rfl
  · dsimp only
    split <;> rfl

theorem State.pollSent_pending : s.pollSent.pending = s.pending := by
  unfold State.pollSent
  split
  · split <;> rfl
  · rfl

theorem State.judgeSample_pending (sample : PollCycle → Option Nat) : (s.judgeSample sample).pending = s.pending := by
  unfold State.judgeSample
  split
  · rfl
  · split
    · dsimp only
      split
      · rfl
      · obtain ⟨_, _, processed⟩ := State.processCycle_frame _ _
        rw [processed]
        rfl
    · rfl

/-! ### The Site Store (R13 to R22) -/

theorem State.enterValid_pending (cause : SiteCause) : (s.enterValid cause).pending = s.pending :=
  (State.applyTurn_pending _ .site).trans (s.entryCaughtUp_offersOnly cause).pending

theorem State.proceed_pending (work : Drain) (cause : SiteCause) : (s.proceed work cause).pending = s.pending := by
  cases work <;> rfl

theorem State.leaveValid_pending (work : Drain) (cause : SiteCause) :
    (s.leaveValid work cause).pending = s.pending := by
  unfold State.leaveValid
  dsimp only
  split
  · exact s.dropQueue_pending
  · exact (State.proceed_pending _ work cause).trans s.dropQueue_pending

theorem State.siteOpen_pending : s.siteOpen.state.pending = s.pending := by
  unfold State.siteOpen
  split
  · rfl
  · split
    · rfl
    · split
      case h_4 => exact s.leaveValid_pending _ _
      all_goals rfl

theorem State.siteLoad_pending (address : Nat) : (s.siteLoad address).state.pending = s.pending := by
  unfold State.siteLoad
  split
  · rfl
  · split
    · rfl
    · split
      · rfl
      · split
        case h_4 => exact s.leaveValid_pending _ _
        all_goals rfl

theorem State.drainEnd_pending : s.drainEnd.pending = s.pending := by
  unfold State.drainEnd
  split
  · split
    · exact State.proceed_pending _ _ _
    · rfl
  · rfl

theorem State.siteClose_pending : s.siteClose.state.pending = s.pending := by
  unfold State.siteClose
  split
  · rfl
  · split
    · split
      · exact s.enterValid_pending .close
      · rfl
    · rfl

theorem State.tableWrite_pending (table first : Nat) (bytes : List Byte) :
    (s.tableWrite table first bytes).state.pending = s.pending := by
  unfold State.tableWrite
  dsimp only
  repeat' split
  all_goals rfl

/-! ### Egress Control (R149 to R155) -/

theorem State.abandonDrain_pending : s.abandonDrain.pending = s.pending := by
  unfold State.abandonDrain
  split <;> rfl

theorem State.enterEgress_pending (cause : EntryCause) : (s.enterEgress cause).pending = s.pending :=
  (State.handBack_pending _).trans (State.abandonDrain_pending _)

theorem State.resume_pending : s.resume.pending = s.pending := State.handBack_pending _

theorem State.egressEnter_pending : s.egressEnter.state.pending = s.pending := by
  unfold State.egressEnter
  split
  · rfl
  · exact s.enterEgress_pending .drill

theorem State.egressResume_pending : s.egressResume.state.pending = s.pending := by
  unfold State.egressResume
  split
  · rfl
  · split
    · rfl
    · exact s.resume_pending

theorem State.alarmAsserted_pending : s.alarmAsserted.pending = s.pending := by
  unfold State.alarmAsserted
  split
  · dsimp only
    split
    · exact State.enterEgress_pending _ .alarm
    · rfl
  · rfl

theorem State.alarmClear_pending : s.alarmClear.pending = s.pending := by
  unfold State.alarmClear
  split
  · dsimp only
    split <;> rfl
  · rfl

/-! ### The Site Transfer Unit (R158 to R166) -/

theorem State.validateLoad_pending : s.validateLoad.pending = s.pending := by
  unfold State.validateLoad
  split
  · rfl
  · exact s.enterValid_pending .load

theorem State.finishTables_pending : s.finishTables.pending = s.pending := by
  unfold State.finishTables
  dsimp only
  split
  · exact s.validateLoad_pending
  · rfl

theorem State.readRecord_pending (table : TableId) (i : Nat) (bytes : List Byte) :
    (s.readRecord table i bytes).pending = s.pending := by
  unfold State.readRecord
  dsimp only
  split
  · rfl
  · split
    · rfl
    · exact State.finishTables_pending _

theorem State.recordRead_pending (bytes : List Byte) : (s.recordRead bytes).pending = s.pending := by
  unfold State.recordRead
  split
  · split
    · exact s.readRecord_pending _ _ bytes
    · rfl
  · rfl

theorem State.headerRead_pending (bytes : List Byte) : (s.headerRead bytes).pending = s.pending := by
  unfold State.headerRead State.noteLength
  repeat' split
  all_goals rfl

theorem State.siteDump_pending (address : Nat) : (s.siteDump address).state.pending = s.pending := by
  unfold State.siteDump
  repeat' split
  all_goals rfl

theorem State.busyClear_pending : s.busyClear.pending = s.pending := by
  unfold State.busyClear State.eraseNext State.programNext
  repeat' split
  all_goals rfl

theorem State.flashTimeout_pending : s.flashTimeout.pending = s.pending := by
  unfold State.flashTimeout
  dsimp only
  repeat' split
  all_goals rfl

/-! ### The Host Link and the resets (R23, R168 to R178) -/

theorem State.ackStart_pending : s.ackStart.state.pending = s.pending := by
  unfold State.ackStart
  split <;> rfl

theorem State.startRepeat_pending : s.startRepeat.pending = s.pending := by
  unfold State.startRepeat
  split <;> rfl

theorem State.setParam_pending (number value : Nat) : (s.setParam number value).state.pending = s.pending := by
  unfold State.setParam
  split
  · rfl
  · split <;> rfl

theorem State.sync_pending (bytes : List Byte) : (s.sync bytes).pending = s.pending := by
  unfold State.sync
  split <;> rfl

theorem State.judgeLate_pending (late : Option Byte) : (s.judgeLate late).pending = s.pending := by
  unfold State.judgeLate
  split
  · exact s.sync_pending []
  · rfl

theorem State.powerOn_pending (rate : BitVec 2) (bootld alarm : Bool) :
    (s.powerOn rate bootld alarm).pending = s.pending := by
  unfold State.powerOn State.bootLoad
  split <;> rfl

theorem State.softResetEffect_pending : s.softResetEffect.pending = s.pending := by
  unfold State.softResetEffect
  split <;> rfl

theorem State.assertReset_pending (rate : BitVec 2) (bootld : Bool) :
    (s.assertReset rate bootld).pending = s.pending := by
  unfold State.assertReset State.abortTransfer
  split <;> rfl

/-! ### Frames and events -/

/-- A frame leaves the queue when what deals with it does. -/
theorem State.judge_pending {dealt : State → State} (h : ∀ u, (dealt u).pending = u.pending) :
    (s.judge dealt).pending = s.pending := by
  unfold State.judge
  split
  · dsimp only
    split
    · rfl
    · exact h _
  · rfl

theorem State.answerError_pending (code : ReplyCode) : (s.answerError code).pending = s.pending :=
  s.judge_pending fun _ => rfl

/-- A request leaves the queue when its block does. -/
theorem State.take_pending (kind : RequestKind) (payload : List Byte) {block : State → Answer}
    (h : ∀ u, (block u).state.pending = u.pending) : (s.take kind payload block).pending = s.pending := by
  unfold State.take
  split
  · exact s.answerError_pending .badLength
  · refine s.judge_pending fun u => ?_
    split
    · rfl
    · split
      · rfl
      · exact h u

theorem State.event_pending {effect : State → State} (h : (effect s).pending = s.pending) :
    (s.event effect).pending = s.pending := by
  unfold State.event
  split
  · exact h
  · rfl

/-! ### Every command -/

theorem exec_pending (c : Instr) : ∃ t, exec c s = .next t ∧ t.pending = s.pending := by
  cases c with
  | powerOnReset rate bootld alarm => exact ⟨_, rfl, s.powerOn_pending rate bootld alarm⟩
  | ackStart payload => exact ⟨_, rfl, s.take_pending _ _ State.ackStart_pending⟩
  | status payload => exact ⟨_, rfl, s.take_pending _ _ fun _ => rfl⟩
  | softReset payload => exact ⟨_, rfl, s.take_pending _ _ fun _ => rfl⟩
  | softResetEffect => exact ⟨_, rfl, s.event_pending s.softResetEffect_pending⟩
  | setParam payload => exact ⟨_, rfl, s.take_pending _ _ fun u => u.setParam_pending _ _⟩
  | getParam payload => exact ⟨_, rfl, s.take_pending _ _ fun u => congrArg State.pending (u.getParam_state _)⟩
  | siteOpen payload => exact ⟨_, rfl, s.take_pending _ _ State.siteOpen_pending⟩
  | siteClose payload => exact ⟨_, rfl, s.take_pending _ _ State.siteClose_pending⟩
  | tableWrite payload => exact ⟨_, rfl, s.take_pending _ _ fun u => u.tableWrite_pending _ _ _⟩
  | tableRead payload =>
    exact ⟨_, rfl, s.take_pending _ _ fun u => congrArg State.pending (u.tableRead_state _ _ _)⟩
  | siteLoad payload => exact ⟨_, rfl, s.take_pending _ _ fun u => u.siteLoad_pending _⟩
  | siteDump payload => exact ⟨_, rfl, s.take_pending _ _ fun u => u.siteDump_pending _⟩
  | condition payload => exact ⟨_, rfl, s.take_pending _ _ fun u => u.condition_pending _ _⟩
  | conditionRead payload =>
    exact ⟨_, rfl, s.take_pending _ _ fun u => congrArg State.pending (u.conditionRead_state _)⟩
  | turnNow payload => exact ⟨_, rfl, s.take_pending _ _ State.turnNow_pending⟩
  | setClock payload => exact ⟨_, rfl, s.take_pending _ _ fun u => u.setClock_pending _ _⟩
  | route payload => exact ⟨_, rfl, s.take_pending _ _ fun u => u.route_pending _⟩
  | cancel payload => exact ⟨_, rfl, s.take_pending _ _ fun u => u.cancel_pending _⟩
  | collect payload => exact ⟨_, rfl, s.take_pending _ _ fun u => u.collect_pending _⟩
  | screenState payload =>
    exact ⟨_, rfl, s.take_pending _ _ fun u => congrArg State.pending (u.screenStateReply_state _)⟩
  | flowRead payload => exact ⟨_, rfl, s.take_pending _ _ fun u => congrArg State.pending (u.flowRead_state _)⟩
  | egressEnter payload => exact ⟨_, rfl, s.take_pending _ _ State.egressEnter_pending⟩
  | egressResume payload => exact ⟨_, rfl, s.take_pending _ _ State.egressResume_pending⟩
  | alarmPinChange => exact ⟨_, rfl, s.event_pending rfl⟩
  | alarmAsserted => exact ⟨_, rfl, s.event_pending s.alarmAsserted_pending⟩
  | alarmClear => exact ⟨_, rfl, s.event_pending s.alarmClear_pending⟩
  | badCheck bytes =>
    refine ⟨_, rfl, ?_⟩
    split
    · rfl
    · exact s.answerError_pending .badCheck
  | unknownKind kind =>
    refine ⟨_, rfl, ?_⟩
    split
    · rfl
    · exact s.answerError_pending .unknownKind
  | badLength length =>
    refine ⟨_, rfl, ?_⟩
    split
    · exact s.answerError_pending .badLength
    · rfl
  | frameTimeout late =>
    refine ⟨_, rfl, ?_⟩
    split
    · exact (State.judgeLate_pending _ late).trans (s.answerError_pending .frameTimeout)
    · rfl
  | linkBusy =>
    refine ⟨_, rfl, ?_⟩
    split
    · exact s.judge_pending fun _ => rfl
    · rfl
  | frameBoundary => exact ⟨_, rfl, s.event_pending rfl⟩
  | startRepeatTimerExpiry => exact ⟨_, rfl, s.event_pending s.startRepeat_pending⟩
  | grant => exact ⟨_, rfl, s.event_pending s.grant_pending⟩
  | recordComplete lane => exact ⟨_, rfl, s.event_pending (s.recordComplete_pending _)⟩
  | slotGrant => exact ⟨_, rfl, s.event_pending s.slotGrant_pending⟩
  | holdTimerExpiry slot => exact ⟨_, rfl, s.event_pending (s.holdExpiry_pending _)⟩
  | drainEnd => exact ⟨_, rfl, s.event_pending s.drainEnd_pending⟩
  | turnTimerExpiry => exact ⟨_, rfl, s.event_pending s.turnTimerExpiry_pending⟩
  | applyStep => exact ⟨_, rfl, s.event_pending s.applyStep_pending⟩
  | tick => exact ⟨_, rfl, s.event_pending rfl⟩
  | minuteBoundary => exact ⟨_, rfl, s.event_pending s.minuteBoundary_pending⟩
  | sampleTimerExpiry => exact ⟨_, rfl, s.event_pending s.sampleTimerExpiry_pending⟩
  | pollSent => exact ⟨_, rfl, s.event_pending s.pollSent_pending⟩
  | counterReply b0 b1 b2 b3 b4 => exact ⟨_, rfl, s.event_pending (s.judgeSample_pending _)⟩
  | replyTimeout => exact ⟨_, rfl, s.event_pending (s.judgeSample_pending _)⟩
  | busyClear => exact ⟨_, rfl, s.event_pending s.busyClear_pending⟩
  | flashTimeout => exact ⟨_, rfl, s.event_pending s.flashTimeout_pending⟩
  | headerRead bytes => exact ⟨_, rfl, s.event_pending (s.headerRead_pending bytes)⟩
  | recordRead bytes => exact ⟨_, rfl, s.event_pending (s.recordRead_pending bytes)⟩
  | resetAsserted rate bootld => exact ⟨_, rfl, s.assertReset_pending rate bootld⟩
  | sync bytes => exact ⟨_, rfl, s.sync_pending bytes⟩

end

end Sys2Proof.Machine
end

section

open Sys2Proof Sys2Proof.Machine

/-- Settles O1: the first and last clause are the cases of `step` on the queue, and `exec_pending` goes through the
commands. -/
theorem stepRunsTheFrontCommand : Obligations.StepRunsTheFrontCommand :=
  ⟨fun _ _ _ => rfl, fun c s => exec_pending s c, fun _ => rfl⟩

end

section
/-! SUPPORT. One step of the part, said once for every invariant that does not read the host link: what the blocks keep, every
command keeps. -/

namespace Sys2Proof.Machine

/-- What holds of a state before a command (`I`), and what each block's own operation leaves of it (`J`), where neither reads
the host link. The commands that touch nothing but the link are not listed. -/
structure Carried (I J : State → Prop) : Prop where
  same : ∀ s, I s → J s
  linkBefore : ∀ s k, I s → I { s with link := k }
  linkAfter : ∀ s k, J s → J { s with link := k }
  powerOn : ∀ s rate bootld alarm, I s → J (s.powerOn rate bootld alarm)
  assertReset : ∀ s rate bootld, I s → J (s.assertReset rate bootld)
  softResetAll : ∀ s, I s → J s.softResetAll
  siteOpen : ∀ s, I s → J s.siteOpen.state
  siteClose : ∀ s, I s → J s.siteClose.state
  tableWrite : ∀ s table first bytes, I s → J (s.tableWrite table first bytes).state
  siteLoad : ∀ s address, I s → J (s.siteLoad address).state
  siteDump : ∀ s address, I s → J (s.siteDump address).state
  drainEnd : ∀ s, I s → J s.drainEnd
  condition : ∀ s target value, I s → J (s.condition target value).state
  turnNow : ∀ s, I s → J s.turnNow.state
  turnTimerExpiry : ∀ s, I s → J s.turnTimerExpiry
  applyStep : ∀ s, I s → J s.applyStep
  tick : ∀ s, I s → J { s with schedule := s.schedule.ticked }
  minuteBoundary : ∀ s, I s → J s.minuteBoundary
  setClock : ∀ s second day, I s → J (s.setClock second day).state
  route : ∀ s r, I s → J (s.route r).state
  grant : ∀ s, I s → J s.grant
  cancel : ∀ s screen, I s → J (s.cancel screen).state
  recordComplete : ∀ s l, l < 4 → I s → J (s.recordComplete l)
  slotGrant : ∀ s, I s → J s.slotGrant
  holdExpiry : ∀ s n, I s → J (s.holdExpiry n)
  collect : ∀ s screen, I s → J (s.collect screen).state
  sampleTimerExpiry : ∀ s, I s → J s.sampleTimerExpiry
  pollSent : ∀ s, I s → J s.pollSent
  judgeSample : ∀ s sample, I s → J (s.judgeSample sample)
  egressEnter : ∀ s, I s → J s.egressEnter.state
  egressResume : ∀ s, I s → J s.egressResume.state
  alarmPinChange : ∀ s, I s → J s.alarmPinChange
  alarmAsserted : ∀ s, I s → J s.alarmAsserted
  alarmClear : ∀ s, I s → J s.alarmClear
  busyClear : ∀ s, I s → J s.busyClear
  flashTimeout : ∀ s, I s → J s.flashTimeout
  headerRead : ∀ s bytes, I s → J (s.headerRead bytes)
  recordRead : ∀ s bytes, I s → J (s.recordRead bytes)

/-! ### The operations that write the host link at most -/

section

variable (s : State)

theorem State.ackStart_link : ∃ k, s.ackStart.state = { s with link := k } := by
  unfold State.ackStart
  split <;> exact ⟨_, rfl⟩

theorem State.setParam_link (number value : Nat) : ∃ k, (s.setParam number value).state = { s with link := k } := by
  unfold State.setParam
  split
  · exact ⟨_, rfl⟩
  · split <;> exact ⟨_, rfl⟩

theorem State.startRepeat_link : ∃ k, s.startRepeat = { s with link := k } := by
  unfold State.startRepeat
  split <;> exact ⟨_, rfl⟩

theorem State.sync_link (bytes : List Byte) : ∃ k, s.sync bytes = { s with link := k } := by
  unfold State.sync
  split <;> exact ⟨_, rfl⟩

theorem State.judgeLate_link (late : Option Byte) : ∃ k, s.judgeLate late = { s with link := k } := by
  unfold State.judgeLate
  split
  · exact s.sync_link []
  · exact ⟨_, rfl⟩

end

/-! ### From the blocks to every command -/

section

variable {I J : State → Prop} {s t : State} (h : Carried I J) (hs : I s)
include h hs

/-- The link alone is written. -/
theorem Carried.link (k : HostLink) : J { s with link := k } := h.same _ (h.linkBefore _ k hs)

theorem Carried.judge {dealt : State → State} (dealtWith : J (dealt s.hunting)) : J (s.judge dealt) := by
  unfold State.judge
  split
  · dsimp only
    split
    · exact h.link hs _
    · exact dealtWith
  · exact h.same s hs

theorem Carried.answerError (code : ReplyCode) : J (s.answerError code) := h.judge hs (h.link hs _)

/-- A request leaves what its block leaves. -/
theorem Carried.take (kind : RequestKind) (payload : List Byte) {block : State → Answer}
    (dealt : ∀ u, I u → J (block u).state) : J (s.take kind payload block) := by
  unfold State.take
  split
  · exact h.answerError hs .badLength
  · refine h.judge hs ?_
    split
    · exact h.link hs _
    · split
      · exact h.link hs _
      · exact h.linkAfter _ _ (dealt s.hunting (h.linkBefore s _ hs))

/-- A request whose block writes the link at most. -/
theorem Carried.takeLink (kind : RequestKind) (payload : List Byte) {block : State → Answer}
    (only : ∀ u, ∃ k, (block u).state = { u with link := k }) : J (s.take kind payload block) :=
  h.take hs kind payload fun u hu => by
    obtain ⟨k, eq⟩ := only u
    rw [eq]
    exact h.link hu k

theorem Carried.event {effect : State → State} (dealt : J (effect s)) : J (s.event effect) := by
  unfold State.event
  split
  · exact dealt
  · exact h.same s hs

theorem Carried.softResetEffect : J s.softResetEffect := by
  unfold State.softResetEffect
  split
  · exact h.softResetAll s hs
  · exact h.same s hs

/-- Every command leaves what the blocks leave. -/
theorem Carried.exec (c : Instr) : ∃ t, exec c s = .next t ∧ J t := by
  cases c with
  | powerOnReset rate bootld alarm => exact ⟨_, rfl, h.powerOn s rate bootld alarm hs⟩
  | ackStart payload => exact ⟨_, rfl, h.takeLink hs _ _ State.ackStart_link⟩
  | status payload => exact ⟨_, rfl, h.takeLink hs _ _ fun _ => ⟨_, rfl⟩⟩
  | softReset payload => exact ⟨_, rfl, h.takeLink hs _ _ fun _ => ⟨_, rfl⟩⟩
  | softResetEffect => exact ⟨_, rfl, h.event hs (h.softResetEffect hs)⟩
  | setParam payload => exact ⟨_, rfl, h.takeLink hs _ _ fun u => u.setParam_link _ _⟩
  | getParam payload => exact ⟨_, rfl, h.takeLink hs _ _ fun u => ⟨_, u.getParam_state _⟩⟩
  | siteOpen payload => exact ⟨_, rfl, h.take hs _ _ h.siteOpen⟩
  | siteClose payload => exact ⟨_, rfl, h.take hs _ _ h.siteClose⟩
  | tableWrite payload => exact ⟨_, rfl, h.take hs _ _ fun u => h.tableWrite u _ _ _⟩
  | tableRead payload => exact ⟨_, rfl, h.takeLink hs _ _ fun u => ⟨_, u.tableRead_state _ _ _⟩⟩
  | siteLoad payload => exact ⟨_, rfl, h.take hs _ _ fun u => h.siteLoad u _⟩
  | siteDump payload => exact ⟨_, rfl, h.take hs _ _ fun u => h.siteDump u _⟩
  | condition payload => exact ⟨_, rfl, h.take hs _ _ fun u => h.condition u _ _⟩
  | conditionRead payload => exact ⟨_, rfl, h.takeLink hs _ _ fun u => ⟨_, u.conditionRead_state _⟩⟩
  | turnNow payload => exact ⟨_, rfl, h.take hs _ _ h.turnNow⟩
  | setClock payload => exact ⟨_, rfl, h.take hs _ _ fun u => h.setClock u _ _⟩
  | route payload => exact ⟨_, rfl, h.take hs _ _ fun u => h.route u _⟩
  | cancel payload => exact ⟨_, rfl, h.take hs _ _ fun u => h.cancel u _⟩
  | collect payload => exact ⟨_, rfl, h.take hs _ _ fun u => h.collect u _⟩
  | screenState payload => exact ⟨_, rfl, h.takeLink hs _ _ fun u => ⟨_, u.screenStateReply_state _⟩⟩
  | flowRead payload => exact ⟨_, rfl, h.takeLink hs _ _ fun u => ⟨_, u.flowRead_state _⟩⟩
  | egressEnter payload => exact ⟨_, rfl, h.take hs _ _ h.egressEnter⟩
  | egressResume payload => exact ⟨_, rfl, h.take hs _ _ h.egressResume⟩
  | alarmPinChange => exact ⟨_, rfl, h.event hs (h.alarmPinChange s hs)⟩
  | alarmAsserted => exact ⟨_, rfl, h.event hs (h.alarmAsserted s hs)⟩
  | alarmClear => exact ⟨_, rfl, h.event hs (h.alarmClear s hs)⟩
  | badCheck bytes =>
    refine ⟨_, rfl, ?_⟩
    split
    · exact h.same s hs
    · exact h.answerError hs .badCheck
  | unknownKind kind =>
    refine ⟨_, rfl, ?_⟩
    split
    · exact h.same s hs
    · exact h.answerError hs .unknownKind
  | badLength length =>
    refine ⟨_, rfl, ?_⟩
    split
    · exact h.answerError hs .badLength
    · exact h.same s hs
  | frameTimeout late =>
    refine ⟨_, rfl, ?_⟩
    split
    · obtain ⟨k, eq⟩ := (s.answerError .frameTimeout).judgeLate_link late
      rw [eq]
      exact h.linkAfter _ k (h.answerError hs .frameTimeout)
    · exact h.same s hs
  | linkBusy =>
    refine ⟨_, rfl, ?_⟩
    split
    · exact h.judge hs (h.link hs _)
    · exact h.same s hs
  | frameBoundary => exact ⟨_, rfl, h.event hs (h.link hs _)⟩
  | startRepeatTimerExpiry =>
    obtain ⟨k, eq⟩ := s.startRepeat_link
    exact ⟨_, rfl, h.event hs (eq ▸ h.link hs k)⟩
  | grant => exact ⟨_, rfl, h.event hs (h.grant s hs)⟩
  | recordComplete lane => exact ⟨_, rfl, h.event hs (h.recordComplete s lane.val lane.isLt hs)⟩
  | slotGrant => exact ⟨_, rfl, h.event hs (h.slotGrant s hs)⟩
  | holdTimerExpiry slot => exact ⟨_, rfl, h.event hs (h.holdExpiry s slot.val hs)⟩
  | drainEnd => exact ⟨_, rfl, h.event hs (h.drainEnd s hs)⟩
  | turnTimerExpiry => exact ⟨_, rfl, h.event hs (h.turnTimerExpiry s hs)⟩
  | applyStep => exact ⟨_, rfl, h.event hs (h.applyStep s hs)⟩
  | tick => exact ⟨_, rfl, h.event hs (h.tick s hs)⟩
  | minuteBoundary => exact ⟨_, rfl, h.event hs (h.minuteBoundary s hs)⟩
  | sampleTimerExpiry => exact ⟨_, rfl, h.event hs (h.sampleTimerExpiry s hs)⟩
  | pollSent => exact ⟨_, rfl, h.event hs (h.pollSent s hs)⟩
  | counterReply b0 b1 b2 b3 b4 => exact ⟨_, rfl, h.event hs (h.judgeSample s _ hs)⟩
  | replyTimeout => exact ⟨_, rfl, h.event hs (h.judgeSample s _ hs)⟩
  | busyClear => exact ⟨_, rfl, h.event hs (h.busyClear s hs)⟩
  | flashTimeout => exact ⟨_, rfl, h.event hs (h.flashTimeout s hs)⟩
  | headerRead bytes => exact ⟨_, rfl, h.event hs (h.headerRead s bytes hs)⟩
  | recordRead bytes => exact ⟨_, rfl, h.event hs (h.recordRead s bytes hs)⟩
  | resetAsserted rate bootld => exact ⟨_, rfl, h.assertReset s rate bootld hs⟩
  | sync bytes =>
    obtain ⟨k, eq⟩ := s.sync_link bytes
    exact ⟨_, rfl, eq ▸ h.link hs k⟩

/-- A step leaves what the blocks leave, where the queue of commands is not read either. -/
theorem Carried.step (pending : ∀ u q, I u → I { u with pending := q }) (next : step s = .next t) : J t := by
  unfold Machine.step at next
  split at next
  · cases next
    exact h.same s hs
  next c rest _ =>
    obtain ⟨u, run, left⟩ := h.exec (pending s rest hs) c
    rw [run] at next
    cases next
    exact left

end

end Sys2Proof.Machine
end

section
/-! SUPPORT. What the blocks hold together (R15, R21, R92, R108, R119, R136, R138, R150, R158, R159, R163): the values it
reads, the operations that leave them, and what the others make of them. -/

namespace Sys2Proof.Machine

/-! ### What is read -/

/-- The values that `State.Consistent` reads, the lanes aside. -/
structure BlockView where
  reset : Bool
  clockSet : Bool
  second : Nat
  day : Nat
  asserted : Bool
  mode : Mode
  cause : Option EntryCause
  site : SiteState
  drain : Option Drain
  turnTimer : Bool
  sampleTimer : Bool
  polling : Bool
  operation : Option Operation
  transfer : TransferState

def State.blockView (s : State) : BlockView :=
  { reset := s.pins.resetAsserted, clockSet := s.schedule.clockSet, second := s.schedule.second, day := s.schedule.day
    asserted := s.egress.asserted, mode := s.egress.mode, cause := s.egress.cause
    site := s.site.state, drain := s.site.drain, turnTimer := s.conditions.timer.isSome
    sampleTimer := s.flow.timer.isSome, polling := s.flow.cycle.isSome
    operation := s.transfer.operation, transfer := s.transfer.state }

/-- R158, R159, R163: the unit's operation and state go with each other and with the site state. -/
structure TransferUnit.Fits (running : Prop) (site : SiteState) (t : TransferUnit) : Prop where
  idle : t.operation.isSome = true ↔ t.state ≠ .idle
  loads : t.operation = some .load → site = .loading
  loading : running → site = .loading → t.operation = some .load
  dumps : t.operation = some .dump → site = .valid
  reading : t.state = .readHeader ∨ t.state = .readTables ∨ t.state = .validate → t.operation = some .load
  writing : t.state = .erase ∨ t.state = .program → t.operation = some .dump

/-- `State.Consistent` with its searches given by a statement: `searches` holds in VALID and DRAINING alone. -/
structure State.Aligned (searches : Prop) (s : State) : Prop where
  second : s.schedule.second ≤ 86399
  day : s.schedule.day ≤ 6
  unset : s.schedule.clockSet = false → s.schedule.second = 0 ∧ s.schedule.day = 0
  alarm : s.egress.asserted = true → s.egress.mode = .egress
  cause : s.egress.cause.isSome = true ↔ s.egress.mode = .egress
  drain : s.site.drain.isSome = true ↔ s.site.state = .draining
  turnTimer : s.conditions.timer.isSome = true ↔ s.site.state = .valid ∨ s.site.state = .draining
  sampleTimer : s.flow.timer.isSome = true ↔ s.site.state = .valid
  cycle : s.flow.cycle.isSome = true → s.site.state = .valid
  transfer : s.transfer.Fits s.Running s.site.state
  searching : searches → s.site.state = .valid ∨ s.site.state = .draining

section

variable {s t : State} {P Q : Prop}

theorem State.Consistent.aligned (h : s.Consistent) : s.Aligned s.Searching := { h with transfer := { h with } }

theorem State.Aligned.consistent (h : s.Aligned P) (searches : s.Searching → P) : s.Consistent :=
  { h.transfer, h with searching := fun some => h.searching (searches some) }

theorem State.Aligned.mono (h : s.Aligned P) (fewer : Q → P) : s.Aligned Q :=
  { h with searching := fun some => h.searching (fewer some) }

/-- What reads the same is aligned as before. -/
theorem State.Aligned.of_view (h : s.Aligned P) (same : t.blockView = s.blockView) : t.Aligned P := by
  simp only [State.blockView, BlockView.mk.injEq] at same
  obtain ⟨reset, clockSet, second, day, asserted, mode, cause, site, drain, turnTimer, sampleTimer, polling, operation,
    transfer⟩ := same
  have running : t.Running → s.Running := fun runs => reset.symm.trans runs
  constructor
  · exact second ▸ h.second
  · exact day ▸ h.day
  · rw [clockSet, second, day]; exact h.unset
  · rw [asserted, mode]; exact h.alarm
  · rw [cause, mode]; exact h.cause
  · rw [drain, site]; exact h.drain
  · rw [turnTimer, site]; exact h.turnTimer
  · rw [sampleTimer, site]; exact h.sampleTimer
  · rw [polling, site]; exact h.cycle
  · have fits := h.transfer
    constructor
    · rw [operation, transfer]; exact fits.idle
    · rw [operation, site]; exact fits.loads
    · rw [operation, site]; exact fun runs => fits.loading (running runs)
    · rw [operation, site]; exact fits.dumps
    · rw [operation, transfer]; exact fits.reading
    · rw [operation, transfer]; exact fits.writing
  · rw [site]; exact h.searching

end

/-! ### Operations that leave it -/

theorem blockView_foldl {α : Type} {f : State → α → State} (h : ∀ s x, (f s x).blockView = s.blockView) (l : List α) :
    ∀ s : State, (l.foldl f s).blockView = s.blockView := by
  induction l with
  | nil => exact fun _ => rfl
  | cons x rest ih => exact fun s => (ih _).trans (h s x)

section

variable (s : State)

theorem State.OffersOnly.blockView {s t : State} (h : s.OffersOnly t) : t.blockView = s.blockView := by
  obtain ⟨_, _, _, _, _, rfl⟩ := h
  rfl

theorem State.dropQueue_blockView : s.dropQueue.blockView = s.blockView :=
  blockView_foldl (f := State.drop .site) (fun _ _ => rfl) _ s

theorem State.takeBack_blockView (requests : List Request) : (s.takeBack requests).blockView = s.blockView := by
  have drops (u : State) (reason : DropReason) (l : List Request) :
      (l.foldl (State.drop reason) u).blockView = u.blockView := blockView_foldl (f := State.drop reason) (fun _ _ => rfl) l u
  have queued (u : State) (l : List Request) : (u.requeue l).blockView = u.blockView :=
    blockView_foldl (f := fun (u : State) (r : Request) => u.setScreen r.screen .queued) (fun _ _ => rfl) l u
  unfold State.takeBack
  split
  · exact (drops _ .mode _).trans ((queued _ _).trans (drops s .site _))
  · exact drops s .site _

theorem State.handBack_blockView : s.handBack.blockView = s.blockView :=
  (State.takeBack_blockView _ _).trans (blockView_foldl (f := State.withdraw) (fun _ _ => rfl) _ s)

theorem State.askSlot_blockView (l : Nat) (r : RouteRecord) : (s.askSlot l r).blockView = s.blockView := by
  rw [s.askSlot_frame l r]; rfl

theorem State.freeSlot_blockView (n screen : Nat) : (s.freeSlot n screen).blockView = s.blockView := by
  rw [s.freeSlot_frame n screen]; rfl

theorem State.cancel_blockView (screen : Nat) : (s.cancel screen).state.blockView = s.blockView := by
  unfold State.cancel
  split
  · rfl
  · split
    · rfl
    · rfl
    · rfl
    · exact s.freeSlot_blockView _ screen

theorem State.collect_blockView (screen : Nat) : (s.collect screen).state.blockView = s.blockView := by
  unfold State.collect
  split
  · rfl
  · split
    · split
      · exact s.freeSlot_blockView _ screen
      · rfl
    · rfl

theorem State.route_blockView (r : Request) : (s.route r).state.blockView = s.blockView := by
  unfold State.route
  split <;> rfl

theorem State.grant_blockView : s.grant.blockView = s.blockView := by
  unfold State.grant State.grantEntry
  split
  · split
    · split
      · rfl
      · dsimp only
        rw [State.startSearch_frame]; rfl
    · rfl
  · rfl

theorem State.recordComplete_blockView (l : Nat) : (s.recordComplete l).blockView = s.blockView := by
  unfold State.recordComplete State.completeSearch
  dsimp only
  split
  · split
    · split <;> exact State.askSlot_blockView _ l _
    · rfl
  · rfl

theorem State.grantSlot_blockView (n : Nat) : (s.grantSlot n).blockView = s.blockView := by
  unfold State.grantSlot
  split
  · rfl
  · split
    · rfl
    · rw [State.storeRecord_frame]; rfl

theorem State.slotGrant_blockView : s.slotGrant.blockView = s.blockView := by
  unfold State.slotGrant
  split
  · exact s.grantSlot_blockView _
  · rfl

theorem State.holdExpiry_blockView (n : Nat) : (s.holdExpiry n).blockView = s.blockView := by
  unfold State.holdExpiry
  split
  · rfl
  · exact State.freeSlot_blockView _ n _

theorem State.condition_blockView (target : Option Target) (value : Nat) :
    (s.condition target value).state.blockView = s.blockView := by
  unfold State.condition
  split
  · rfl
  · split
    · rfl
    · split
      · rfl
      · split
        · rfl
        · split <;> rfl

theorem State.applyTurn_blockView (cause : TurnCause) : (s.applyTurn cause).blockView = s.blockView := by
  obtain ⟨_, _, _, _, _, _, _, _, eq⟩ := s.applyTurn_frame cause
  rw [eq]; rfl

theorem State.beginTurn_blockView (cause : TurnCause) : (s.beginTurn cause).blockView = s.blockView := by
  unfold State.beginTurn
  split
  · rfl
  · exact s.applyTurn_blockView cause

theorem State.askTurn_blockView (cause : TurnCause) : (s.askTurn cause).blockView = s.blockView := by
  unfold State.askTurn
  split
  · exact s.beginTurn_blockView cause
  · rfl

theorem State.turnNow_blockView : s.turnNow.state.blockView = s.blockView := by
  unfold State.turnNow
  split
  · rfl
  · split
    · rfl
    · split
      · exact s.beginTurn_blockView .request
      · rfl

theorem State.turnTimerExpiry_blockView : s.turnTimerExpiry.blockView = s.blockView := by
  unfold State.turnTimerExpiry
  split
  · rfl
  next length running =>
    refine (State.askTurn_blockView _ .timer).trans ?_
    simp [State.blockView, running]

theorem State.applyStep_blockView : s.applyStep.blockView = s.blockView := by
  unfold State.applyStep
  split
  · split
    · rfl
    · exact s.applyTurn_blockView _
  · rfl

theorem State.minuteBoundary_blockView : s.minuteBoundary.blockView = s.blockView := by
  unfold State.minuteBoundary
  split
  · dsimp only
    split
    · exact (State.offerEntries_offersOnly _ _).blockView
    · rfl
  · rfl

theorem State.processCycle_blockView (samples : List (Nat × Option Nat)) :
    (s.processCycle samples).blockView = s.blockView :=
  blockView_foldl (f := State.processChannel) (fun _ _ => blockView_foldl (f := State.offer) (fun _ _ => rfl) _ _) _ s

theorem SiteStore.setRecord_drain (site : SiteStore) (i : Nat) (r : Record) : (site.setRecord i r).drain = site.drain := by
  cases r <;> rfl

theorem SiteStore.setRecords_drain (site : SiteStore) (first : Nat) (records : List Record) :
    (site.setRecords first records).drain = site.drain := by
  induction records generalizing site first with
  | nil => rfl
  | cons r rest ih => exact (ih _ _).trans (site.setRecord_drain first r)

theorem State.tableWrite_blockView (table first : Nat) (bytes : List Byte) :
    (s.tableWrite table first bytes).state.blockView = s.blockView := by
  unfold State.tableWrite
  split
  · rfl
  · split
    · rfl
    · dsimp only
      split
      · rfl
      · split
        · rfl
        · simp [State.blockView, accept, SiteStore.setRecords_state, SiteStore.setRecords_drain]

end

end Sys2Proof.Machine
end

section
/-! SUPPORT. What each command makes of the values that the blocks hold together (R13 to R22, R90 to R111, R136 to R139, R149
to R167). -/

namespace Sys2Proof.Machine

/-! ### The transfer unit (R158, R159, R163) -/

theorem TransferUnit.fits_of_idle {running : Prop} {site : SiteState} {t : TransferUnit} (state : t.state = .idle)
    (operation : t.operation = none) (notLoading : running → site ≠ .loading) : t.Fits running site := by
  constructor <;> simp [state, operation]
  exact notLoading

theorem TransferUnit.fits_load {running : Prop} {t : TransferUnit} (operation : t.operation = some .load)
    (state : t.state = .readyWait ∨ t.state = .readHeader ∨ t.state = .readTables ∨ t.state = .validate) :
    t.Fits running .loading := by
  constructor <;> simp [operation] <;> rcases state with e | e | e | e <;> simp [e]

theorem TransferUnit.fits_dump {running : Prop} {t : TransferUnit} (operation : t.operation = some .dump)
    (state : t.state = .readyWait ∨ t.state = .erase ∨ t.state = .program) : t.Fits running .valid := by
  constructor <;> simp [operation] <;> rcases state with e | e | e <;> simp [e]

section

variable {running : Prop} {site : SiteState} {t : TransferUnit}

/-- A unit in IDLE holds no operation. -/
theorem TransferUnit.Fits.no_operation (h : t.Fits running site) (idle : t.state = .idle) : t.operation = none := by
  rw [← Option.not_isSome_iff_eq_none]
  exact fun some => h.idle.mp some idle

/-- A transfer runs in LOADING and VALID alone. -/
theorem TransferUnit.Fits.unit_idle (h : t.Fits running site) (notLoading : site ≠ .loading) (notValid : site ≠ .valid) :
    t.state = .idle := by
  by_contra runs
  obtain ⟨operation, held⟩ := Option.isSome_iff_exists.mp (h.idle.mpr runs)
  cases operation with
  | load => exact notLoading (h.loads held)
  | dump => exact notValid (h.dumps held)

/-- A unit that goes on with its load or its dump fits where it did. -/
theorem TransferUnit.Fits.load_goes_on (h : t.Fits running site) {u : TransferUnit} (load : t.operation = some .load)
    (same : u.operation = t.operation)
    (state : u.state = .readyWait ∨ u.state = .readHeader ∨ u.state = .readTables ∨ u.state = .validate) :
    u.Fits running site :=
  h.loads load ▸ TransferUnit.fits_load (same.trans load) state

theorem TransferUnit.Fits.dump_goes_on (h : t.Fits running site) {u : TransferUnit} (dump : t.operation = some .dump)
    (same : u.operation = t.operation) (state : u.state = .readyWait ∨ u.state = .erase ∨ u.state = .program) :
    u.Fits running site :=
  h.dumps dump ▸ TransferUnit.fits_dump (same.trans dump) state

end

section

variable {s : State} {P : Prop}

theorem State.Aligned.setTransfer (h : s.Aligned P) {t : TransferUnit} (fits : t.Fits s.Running s.site.state) :
    (s.setTransfer t).Aligned P := { h with transfer := fits }

theorem State.idle_of_not_runs (h : ¬ s.transferRuns = true) : s.transfer.state = .idle :=
  not_not.mp fun runs => h (s.transferRuns_iff.mpr runs)

/-! ### Leaving VALID, drains and loads (R14 to R16, R159) -/

/-- R15: outside DRAINING nothing waits for a drain. -/
theorem State.Aligned.setDrain_none (h : s.Aligned P) (site : s.site.state ≠ .draining) : s.setDrain none = s := by
  have held : s.site.drain = none := by
    rw [← Option.not_isSome_iff_eq_none]
    exact fun some => site (h.drain.mp some)
  unfold State.setDrain
  rw [← held]

theorem State.Aligned.quiet (h : s.Aligned P) (notValid : s.site.state ≠ .valid) (notDraining : s.site.state ≠ .draining) :
    ¬ P := fun some => (h.searching some).elim notValid notDraining

/-- Outside VALID and DRAINING nothing of a drain, a timer, a cycle or a search is left (R108, R119). -/
theorem State.Aligned.leaveSite (h : s.Aligned P) {next : SiteState} (notValid : next ≠ .valid)
    (notDraining : next ≠ .draining) (quiet : ¬ P) {t : TransferUnit} (fits : t.Fits s.Running next) (cause : SiteCause) :
    ({ (s.setDrain none).moveSiteWithNotice next cause with transfer := t } : State).Aligned P :=
  have stopped : next.turnTimerRuns = false := SiteState.turnTimerRuns_eq_false notValid notDraining
  { h with
    drain := by simp [State.moveSiteWithNotice, State.offerSiteState, State.moveSite, State.setDrain, notDraining]
    turnTimer := by
      simp [State.moveSiteWithNotice, State.offerSiteState, State.moveSite, stopped, notValid, notDraining]
    sampleTimer := by simp [State.moveSiteWithNotice, State.offerSiteState, State.moveSite, notValid]
    cycle := by simp [State.moveSiteWithNotice, State.offerSiteState, State.moveSite, notValid]
    transfer := fits
    searching := fun some => absurd some quiet }

/-- An accepted open or load proceeds with no operation under way and no lane SEARCHING. -/
theorem State.Aligned.proceed (h : s.Aligned P) (idle : s.transfer.state = .idle) (quiet : ¬ P) (work : Drain)
    (cause : SiteCause) : ((s.setDrain none).proceed work cause).Aligned P := by
  cases work with
  | openSession =>
    exact h.leaveSite (next := .editing) nofun nofun quiet
      (TransferUnit.fits_of_idle idle (h.transfer.no_operation idle) fun _ => nofun) cause
  | load address => exact h.leaveSite (next := .loading) nofun nofun quiet (TransferUnit.fits_load rfl (.inl rfl)) cause

/-- From any state but VALID and DRAINING an accepted open or load proceeds at once. -/
theorem State.Aligned.proceed_closed (h : s.Aligned P) (idle : s.transfer.state = .idle) (notValid : s.site.state ≠ .valid)
    (notDraining : s.site.state ≠ .draining) (work : Drain) (cause : SiteCause) : (s.proceed work cause).Aligned P := by
  have proceeds := h.proceed idle (h.quiet notValid notDraining) work cause
  rwa [h.setDrain_none notDraining] at proceeds

/-- R14, R21: from VALID the site drains while a lane is SEARCHING, and proceeds with none. -/
theorem State.Aligned.leaveValid (h : s.Aligned P) (searches : P → s.Searching) (valid : s.site.state = .valid)
    (idle : s.transfer.state = .idle) (work : Drain) (cause : SiteCause) : (s.leaveValid work cause).Aligned P := by
  have same := s.dropQueue_blockView
  have dropped : s.dropQueue.Aligned P := h.of_view same
  have site : s.dropQueue.site.state = .valid := (congrArg BlockView.site same).trans valid
  have unit : s.dropQueue.transfer.state = .idle := (congrArg BlockView.transfer same).trans idle
  have lanes : s.dropQueue.lanes = s.lanes := congrArg SearchView.lanes s.dropQueue_searchView
  unfold State.leaveValid
  dsimp only
  split
  · exact { dropped with
      drain := by simp [State.moveSiteWithNotice, State.offerSiteState, State.moveSite, State.setDrain]
      turnTimer := by
        have running := dropped.turnTimer.mpr (.inl site)
        simpa [State.moveSiteWithNotice, State.offerSiteState, State.moveSite, State.setDrain, SiteState.turnTimerRuns]
          using running
      sampleTimer := by simp [State.moveSiteWithNotice, State.offerSiteState, State.moveSite]
      cycle := by simp [State.moveSiteWithNotice, State.offerSiteState, State.moveSite]
      transfer := TransferUnit.fits_of_idle unit (dropped.transfer.no_operation unit) fun _ => nofun
      searching := fun _ => .inr rfl }
  next none =>
    have quiet : ¬ P := fun some => by
      obtain ⟨l, hl, search⟩ := searches some
      refine none ((State.anySearching_iff _).mpr ⟨l, hl, ?_⟩)
      unfold State.lane at search ⊢
      rwa [lanes]
    have proceeds := dropped.proceed unit quiet work cause
    rwa [dropped.setDrain_none (by rw [site]; nofun)] at proceeds

theorem State.Aligned.siteOpen (h : s.Aligned P) (searches : P → s.Searching) : s.siteOpen.state.Aligned P := by
  unfold State.siteOpen
  split
  · exact h
  next stopped =>
    have idle := State.idle_of_not_runs stopped
    split
    · exact h
    · split
      next site => exact h.proceed_closed idle (by simp [site]) (by simp [site]) .openSession .openSession
      next site => exact h.proceed_closed idle (by simp [site]) (by simp [site]) .openSession .openSession
      · exact h
      next site => exact h.leaveValid searches site idle .openSession .openSession
      · exact h
      · exact h

theorem State.Aligned.siteLoad (h : s.Aligned P) (searches : P → s.Searching) (address : Nat) :
    (s.siteLoad address).state.Aligned P := by
  unfold State.siteLoad
  split
  · exact h
  · split
    · exact h
    next stopped =>
      have idle := State.idle_of_not_runs stopped
      split
      · exact h
      · split
        next site => exact h.proceed_closed idle (by simp [site]) (by simp [site]) (.load address) .load
        next site => exact h.proceed_closed idle (by simp [site]) (by simp [site]) (.load address) .load
        next site => exact h.proceed_closed idle (by simp [site]) (by simp [site]) (.load address) .load
        next site => exact h.leaveValid searches site idle (.load address) .load
        · exact h
        · exact h

theorem State.Aligned.drainEnd (h : s.Aligned P) (searches : P → s.Searching) : s.drainEnd.Aligned P := by
  unfold State.drainEnd
  split
  next ends =>
    simp only [Bool.and_eq_true, decide_eq_true_eq, Bool.not_eq_true'] at ends
    obtain ⟨draining, none⟩ := ends
    split
    next work _ =>
      exact h.proceed (h.transfer.unit_idle (by simp [draining]) (by simp [draining]))
        (fun some => s.anySearching_eq_false_iff.mp none (searches some)) work .drain
    · exact h
  · exact h

/-! ### Entering VALID and closing (R19, R22) -/

/-- R22: an entry to VALID starts both timers and ends a cycle, and leaves the other values as they are. -/
theorem State.enterValid_blockView (s : State) (cause : SiteCause) : (s.enterValid cause).blockView = { s.blockView with
    site := .valid, turnTimer := true, sampleTimer := true, polling := false } := by
  have caughtUp := (s.entryCaughtUp_offersOnly cause).blockView
  have applied := ((s.entryCaughtUp cause).applyTurn_blockView .site).trans caughtUp
  have timer (u : State) : u.startTurnTimer.blockView = { u.blockView with turnTimer := true } := rfl
  rw [State.enterValid_eq, timer, applied]
  rfl

theorem State.Aligned.enterValid (h : s.Aligned P) (notDraining : s.site.state ≠ .draining) {t : TransferUnit}
    (fits : t.Fits s.Running .valid) (cause : SiteCause) :
    ({ s.enterValid cause with transfer := t } : State).Aligned P := by
  have entered : ({ s with
      site := { s.site with state := .valid }, conditions := { s.conditions with timer := some 0 }
      flow := { s.flow with timer := some 0, cycle := none }, transfer := t } : State).Aligned P :=
    { h with
      drain := by simpa [notDraining] using h.drain
      turnTimer := by simp
      sampleTimer := by simp
      cycle := nofun
      transfer := fits
      searching := fun _ => .inl rfl }
  refine entered.of_view ?_
  have view := s.enterValid_blockView cause
  calc ({ s.enterValid cause with transfer := t } : State).blockView
      = { (s.enterValid cause).blockView with operation := t.operation, transfer := t.state } := rfl
    _ = _ := by rw [view]; rfl

theorem State.Aligned.siteClose (h : s.Aligned P) : s.siteClose.state.Aligned P := by
  unfold State.siteClose
  split
  · exact h
  next stopped =>
    have idle := State.idle_of_not_runs stopped
    have operation := h.transfer.no_operation idle
    split
    next opened =>
      have notDraining : s.site.state ≠ .draining := by intro site; simp [site] at opened
      have notValid : s.site.state ≠ .valid := by intro site; simp [site] at opened
      split
      · have entered := h.enterValid notDraining (TransferUnit.fits_of_idle idle operation fun _ => nofun) .close
        refine entered.of_view ?_
        have view := s.enterValid_blockView .close
        calc (s.enterValid .close).blockView
            = { (s.enterValid .close).blockView with operation := s.transfer.operation, transfer := s.transfer.state } := by
              rw [view]; rfl
          _ = _ := rfl
      · have left := h.leaveSite (next := .invalid) nofun nofun (h.quiet notValid notDraining)
          (TransferUnit.fits_of_idle idle operation fun _ => nofun) .close
        rwa [h.setDrain_none notDraining] at left
    · exact h

/-! ### Loads and dumps (R158 to R166) -/

/-- R162: a load ends with the unit in IDLE. -/
theorem TransferUnit.ended_fits (t : TransferUnit) (operation : Operation) (outcome : TransferOutcome) (running : Prop)
    {site : SiteState} (notLoading : site ≠ .loading) : (t.ended operation outcome).Fits running site :=
  TransferUnit.fits_of_idle rfl rfl fun _ => notLoading

theorem State.Aligned.failLoad (h : s.Aligned P) (loading : s.site.state = .loading) (outcome : TransferOutcome) :
    (s.failLoad outcome).Aligned P := by
  have left := h.leaveSite (next := .invalid) nofun nofun (h.quiet (by simp [loading]) (by simp [loading]))
    (s.transfer.ended_fits .load outcome s.Running (site := .invalid) nofun) .load
  rw [h.setDrain_none (by simp [loading])] at left
  exact left.of_view rfl

theorem State.Aligned.finishTables (h : s.Aligned P) (loading : s.site.state = .loading) : s.finishTables.Aligned P := by
  unfold State.finishTables State.validateLoad
  dsimp only
  split
  · split
    · exact h.failLoad loading _
    · have entered := h.enterValid (by simp [loading])
        (s.transfer.ended_fits .load .valid s.Running (site := .valid) nofun) .load
      exact entered.of_view rfl
  · exact h.failLoad loading _

theorem State.Aligned.readRecord (h : s.Aligned P) (reading : s.transfer.state = .readTables) (table : TableId) (i : Nat)
    (bytes : List Byte) : (s.readRecord table i bytes).Aligned P := by
  have load := h.transfer.reading (.inr (.inl reading))
  have loading := h.transfer.loads load
  have counted : (s.setTransfer (s.transfer.counted bytes)).Aligned P := h.of_view rfl
  unfold State.readRecord
  dsimp only
  split
  · exact counted.failLoad loading _
  next record _ =>
    have written : ({ s.setTransfer (s.transfer.counted bytes) with site := s.site.setRecord i record } : State).Aligned P :=
      counted.of_view (by simp [State.blockView, SiteStore.setRecord_state, SiteStore.setRecord_drain])
    have stays : (s.site.setRecord i record).state = .loading := (s.site.setRecord_state i record).trans loading
    split
    · exact written.of_view rfl
    · refine (written.setTransfer ?_).finishTables stays
      exact written.transfer.load_goes_on load rfl (.inr (.inr (.inr rfl)))

theorem State.Aligned.recordRead (h : s.Aligned P) (bytes : List Byte) : (s.recordRead bytes).Aligned P := by
  unfold State.recordRead
  split
  next reading _ =>
    split
    · exact h.readRecord reading _ _ bytes
    · exact h
  · exact h

theorem State.Aligned.headerRead (h : s.Aligned P) (bytes : List Byte) : (s.headerRead bytes).Aligned P := by
  unfold State.headerRead
  split
  next reads =>
    simp only [Bool.and_eq_true, decide_eq_true_eq] at reads
    have load := h.transfer.reading (.inl reads.1)
    have loading := h.transfer.loads load
    split
    · unfold State.noteLength
      split
      · have noted : (s.setTransfer { s.transfer with imageLength := some (longAt bytes 24) }).Aligned P := h.of_view rfl
        exact noted.failLoad loading _
      · exact h.failLoad loading _
    · exact { h with transfer := h.transfer.load_goes_on load rfl (.inr (.inr (.inl rfl))) }
  · exact h

theorem State.Aligned.siteDump (h : s.Aligned P) (address : Nat) : (s.siteDump address).state.Aligned P := by
  unfold State.siteDump
  split
  · exact h
  · split
    · exact h
    next valid =>
      split
      · exact h
      · split
        · exact h
        · refine h.setTransfer ?_
          rw [not_not.mp valid]
          exact TransferUnit.fits_dump rfl (.inl rfl)

theorem State.Aligned.programNext (h : s.Aligned P) (dump : s.transfer.operation = some .dump) (offset : Nat) :
    (s.programNext offset).Aligned P := by
  unfold State.programNext
  split <;> exact h.setTransfer (h.transfer.dump_goes_on dump rfl (.inr (.inr rfl)))

theorem State.Aligned.eraseNext (h : s.Aligned P) (dump : s.transfer.operation = some .dump) (offset : Nat) :
    (s.eraseNext offset).Aligned P := by
  unfold State.eraseNext
  split
  · exact h.setTransfer (h.transfer.dump_goes_on dump rfl (.inr (.inl rfl)))
  · exact h.programNext dump 0

theorem State.Aligned.dumpEnded (h : s.Aligned P) (dump : s.transfer.operation = some .dump) (outcome : TransferOutcome) :
    (s.endTransfer s.transfer .dump outcome none).Aligned P := by
  have notLoading : s.site.state ≠ .loading := by rw [h.transfer.dumps dump]; nofun
  exact (h.setTransfer (s.transfer.ended_fits .dump outcome s.Running notLoading)).of_view rfl

theorem State.Aligned.busyClear (h : s.Aligned P) : s.busyClear.Aligned P := by
  unfold State.busyClear
  split
  · split
    next load => exact h.setTransfer (h.transfer.load_goes_on load rfl (.inr (.inl rfl)))
    next dump => exact h.setTransfer (h.transfer.dump_goes_on dump rfl (.inr (.inl rfl)))
    · exact h
  next erase => exact h.eraseNext (h.transfer.writing (.inl erase)) _
  next program =>
    have dump := h.transfer.writing (.inr program)
    split
    · exact h.dumpEnded dump .written
    · exact h.programNext dump _
  · exact h
  · exact h
  · exact h
  · exact h

theorem State.Aligned.flashTimeout (h : s.Aligned P) : s.flashTimeout.Aligned P := by
  unfold State.flashTimeout
  dsimp only
  split
  · split
    next load => exact h.failLoad (h.transfer.loads load) _
    next dump => exact h.dumpEnded dump _
    · exact h
  · exact h

/-! ### The clock and the Flow Monitor (R119, R120, R138, R139) -/

theorem State.Aligned.tick (h : s.Aligned P) : ({ s with schedule := s.schedule.ticked } : State).Aligned P := by
  have second := h.second
  have day := h.day
  have ticked : s.schedule.ticked.second ≤ 86399 ∧ s.schedule.ticked.day ≤ 6 ∧
      (s.schedule.ticked.clockSet = false → s.schedule.ticked.second = 0 ∧ s.schedule.ticked.day = 0) := by
    unfold ScheduleUnit.ticked
    split
    next set =>
      refine ⟨?_, ?_, fun unset => by simp [set] at unset⟩
      · simp only [nextSecond]; split <;> omega
      · simp only [nextDay]; split <;> omega
    · exact ⟨second, day, h.unset⟩
  exact { h with second := ticked.1, day := ticked.2.1, unset := ticked.2.2 }

theorem State.Aligned.setClock (h : s.Aligned P) (second day : Nat) : (s.setClock second day).state.Aligned P := by
  unfold State.setClock
  split
  · exact h
  next within =>
    simp only [Bool.or_eq_true, decide_eq_true_eq, not_or, Nat.not_lt] at within
    have written : (s.writeClock second day).Aligned P := { h with second := within.1, day := within.2, unset := nofun }
    unfold accept
    dsimp only
    split
    · exact written.of_view ((State.askTurn_blockView _ .schedule).trans (State.catchUp_offersOnly _).blockView)
    · exact written

theorem State.Aligned.sampleTimerExpiry (h : s.Aligned P) : s.sampleTimerExpiry.Aligned P := by
  unfold State.sampleTimerExpiry
  split
  · exact h
  next running =>
    have valid : s.site.state = .valid := h.sampleTimer.mp (by simp [running])
    have started : s.startSampleTimer.Aligned P := { h with sampleTimer := iff_of_true rfl valid }
    dsimp only
    split
    · exact { started with cycle := fun _ => valid }
    · exact started

theorem State.Aligned.pollSent (h : s.Aligned P) : s.pollSent.Aligned P := by
  unfold State.pollSent
  split
  next polling =>
    split
    · exact { h with cycle := fun _ => h.cycle (by simp [polling]) }
    · exact h
  · exact h

theorem State.Aligned.judgeSample (h : s.Aligned P) (sample : PollCycle → Option Nat) : (s.judgeSample sample).Aligned P := by
  unfold State.judgeSample
  split
  · exact h
  next polling =>
    split
    · dsimp only
      split
      · exact { h with cycle := fun _ => h.cycle (by simp [polling]) }
      · have ended : (s.setCycle none).Aligned P := { h with cycle := nofun }
        exact ended.of_view (State.processCycle_blockView _ _)
    · exact h

/-! ### Egress Control (R149 to R155) -/

/-- R152: an abandoned drain leaves VALID, with the sample timer running again. -/
theorem State.Aligned.abandonDrain (h : s.Aligned P) : s.abandonDrain.Aligned P := by
  unfold State.abandonDrain
  split
  next draining =>
    have fits := h.transfer
    rw [draining] at fits
    have unit := fits.unit_idle nofun nofun
    exact { h with
      drain := by simp [State.offerSiteState, State.moveSite, State.setDrain, State.startSampleTimer]
      turnTimer := by
        have running := h.turnTimer.mpr (.inr draining)
        simpa [State.offerSiteState, State.moveSite, State.setDrain, State.startSampleTimer, SiteState.turnTimerRuns]
          using running
      sampleTimer := iff_of_true rfl rfl
      cycle := fun _ => rfl
      transfer := TransferUnit.fits_of_idle unit (fits.no_operation unit) fun _ => nofun
      searching := fun _ => .inl rfl }
  · exact h

theorem State.Aligned.enterEgress (h : s.Aligned P) (cause : EntryCause) : (s.enterEgress cause).Aligned P := by
  have entered : (s.setEgress { s.egress with mode := .egress, cause := some cause }).Aligned P :=
    { h with alarm := fun _ => rfl, cause := iff_of_true rfl rfl }
  exact entered.abandonDrain.of_view (State.handBack_blockView _)

theorem State.Aligned.egressEnter (h : s.Aligned P) : s.egressEnter.state.Aligned P := by
  unfold State.egressEnter
  split
  · exact h
  · exact h.enterEgress .drill

theorem State.Aligned.egressResume (h : s.Aligned P) : s.egressResume.state.Aligned P := by
  unfold State.egressResume
  split
  · exact h
  · split
    · exact h
    next clear =>
      have resumed : (s.setEgress { s.egress with mode := .normal, cause := none }).Aligned P :=
        { h with alarm := fun asserted => absurd asserted clear, cause := iff_of_false nofun nofun }
      exact resumed.of_view (State.handBack_blockView _)

theorem State.Aligned.alarmAsserted (h : s.Aligned P) : s.alarmAsserted.Aligned P := by
  unfold State.alarmAsserted
  split
  · dsimp only
    split
    next normal =>
      have entered : ((s.takeLevel true).setEgress { (s.takeLevel true).egress with mode := .egress, cause := some .alarm }).Aligned
          P := { h with alarm := fun _ => rfl, cause := iff_of_true rfl rfl }
      exact entered.abandonDrain.of_view (State.handBack_blockView _)
    next egress => exact { h with alarm := fun _ => egress }
  · exact h

theorem State.Aligned.alarmClear (h : s.Aligned P) : s.alarmClear.Aligned P := by
  unfold State.alarmClear
  split
  · dsimp only
    split
    · exact { h with alarm := nofun }
    · exact { h with alarm := nofun }
  · exact h

/-! ### The resets (R23, R24, R165, R172, R177) -/

theorem State.powerOn_aligned (s : State) (rate : BitVec 2) (bootld alarm : Bool) :
    (s.powerOn rate bootld alarm).Aligned False := by
  have empty : ({ State.reset with
      pending := s.pending
      pins := { resetAsserted := false, rate := rate, bootld := bootld }
      egress := .afterPowerOn alarm } : State).Aligned False := by
    constructor <;> simp [State.reset, EgressControl.afterPowerOn, SiteStore.cleared]
    exact TransferUnit.fits_of_idle rfl rfl fun _ => nofun
  unfold State.powerOn State.bootLoad
  split
  · exact { empty with
      drain := by simp [State.startLoad, State.moveSite, State.reset, SiteStore.cleared]
      turnTimer := by simp [State.startLoad, State.moveSite, SiteState.turnTimerRuns]
      sampleTimer := by simp [State.startLoad, State.moveSite]
      cycle := by simp [State.startLoad, State.moveSite]
      transfer := TransferUnit.fits_load rfl (.inl rfl)
      searching := nofun }
  · exact empty

/-- R165: with RESET asserted no transfer is left. -/
theorem State.Aligned.assertReset (h : s.Aligned P) (rate : BitVec 2) (bootld : Bool) :
    (s.assertReset rate bootld).Aligned P := by
  have stopped : ∀ {t : TransferUnit}, t.state = .idle → t.operation = none →
      ({ s with
        transfer := t
        pins := { resetAsserted := true, rate := rate, bootld := bootld }
        link := { s.link with sending := none } } : State).Aligned P := fun idle operation =>
    { h with transfer := TransferUnit.fits_of_idle idle operation nofun }
  unfold State.assertReset State.abortTransfer
  split
  · exact stopped rfl rfl
  next stays =>
    have idle := State.idle_of_not_runs stays
    exact stopped idle (h.transfer.no_operation idle)

/-- R24: a soft reset leaves neither LOADING nor DRAINING. -/
theorem SiteStore.softReset_state_of_searchable (site : SiteStore) (h : site.state = .valid ∨ site.state = .draining) :
    site.softReset.state = .valid := by
  rcases h with e | e <;> simp [SiteStore.softReset, e]

theorem SiteStore.softReset_settled (site : SiteStore) :
    site.softReset.state ≠ .loading ∧ site.softReset.state ≠ .draining := by
  cases e : site.state <;> simp [SiteStore.softReset, e]

theorem State.Aligned.softResetAll (h : s.Aligned P) : s.softResetAll.Aligned P := by
  obtain ⟨notLoading, notDraining⟩ := s.site.softReset_settled
  have unit : ∃ t, s.softResetAll.transfer = t ∧ t.state = .idle ∧ t.operation = none := by
    refine ⟨_, rfl, ?_⟩
    unfold State.softResetAll
    dsimp only
    split
    · exact ⟨rfl, rfl⟩
    next stays =>
      have idle := State.idle_of_not_runs stays
      exact ⟨idle, h.transfer.no_operation idle⟩
  obtain ⟨t, same, idle, operation⟩ := unit
  exact { h with
    alarm := fun asserted => by
      have held : s.egress.asserted = true := asserted
      simp [State.softResetAll, EgressControl.softReset, held]
    cause := by cases e : s.egress.asserted <;> simp [State.softResetAll, EgressControl.softReset, e]
    drain := by simp [State.softResetAll, SiteStore.softReset] at notDraining ⊢; exact notDraining
    turnTimer := by simpa [State.softResetAll, ConditionUnit.softReset] using fun e => absurd e notDraining
    sampleTimer := by simp [State.softResetAll, FlowMonitor.softReset]
    cycle := nofun
    transfer := same ▸ TransferUnit.fits_of_idle idle operation fun _ => notLoading
    searching := fun some => .inl (s.site.softReset_state_of_searchable (h.searching some)) }

end

end Sys2Proof.Machine
end

section
/-! SUPPORT. A command leaves the blocks consistent: searches in VALID and DRAINING alone go on there or end, and only GRANT
begins one, in VALID (R15, R92). -/

namespace Sys2Proof.Machine

section

variable (P : Prop)

/-- With `P` for a search that runs before the command: what is aligned stays so, as far as the searches after it ran
before it. -/
theorem State.Aligned.carried :
    Carried (fun u => u.Aligned P ∧ (P → u.Searching)) (fun t => t.Aligned (P ∧ t.Searching)) := by
  have after {u : State} (h : u.Aligned P) : u.Aligned (P ∧ u.Searching) := h.mono And.left
  have kept {u t : State} (h : u.Aligned P ∧ (P → u.Searching)) (same : t.blockView = u.blockView) :
      t.Aligned (P ∧ t.Searching) := after (h.1.of_view same)
  exact {
    same := fun _ h => after h.1
    linkBefore := fun _ _ h => ⟨h.1.of_view rfl, h.2⟩
    linkAfter := fun _ _ h => h.of_view rfl
    powerOn := fun s rate bootld alarm _ =>
      (s.powerOn_aligned rate bootld alarm).mono fun some => s.powerOn_not_searching rate bootld alarm some.2
    assertReset := fun _ rate bootld h => after (h.1.assertReset rate bootld)
    softResetAll := fun _ h => after h.1.softResetAll
    siteOpen := fun _ h => after (h.1.siteOpen h.2)
    siteClose := fun _ h => after h.1.siteClose
    tableWrite := fun s _ _ _ h => kept h (s.tableWrite_blockView _ _ _)
    siteLoad := fun _ address h => after (h.1.siteLoad h.2 address)
    siteDump := fun _ address h => after (h.1.siteDump address)
    drainEnd := fun _ h => after (h.1.drainEnd h.2)
    condition := fun s _ _ h => kept h (s.condition_blockView _ _)
    turnNow := fun s h => kept h s.turnNow_blockView
    turnTimerExpiry := fun s h => kept h s.turnTimerExpiry_blockView
    applyStep := fun s h => kept h s.applyStep_blockView
    tick := fun _ h => after h.1.tick
    minuteBoundary := fun s h => kept h s.minuteBoundary_blockView
    setClock := fun _ second day h => after (h.1.setClock second day)
    route := fun s _ h => kept h (s.route_blockView _)
    grant := fun s h => kept h s.grant_blockView
    cancel := fun s _ h => kept h (s.cancel_blockView _)
    recordComplete := fun s l _ h => kept h (s.recordComplete_blockView l)
    slotGrant := fun s h => kept h s.slotGrant_blockView
    holdExpiry := fun s n h => kept h (s.holdExpiry_blockView n)
    collect := fun s _ h => kept h (s.collect_blockView _)
    sampleTimerExpiry := fun _ h => after h.1.sampleTimerExpiry
    pollSent := fun _ h => after h.1.pollSent
    judgeSample := fun _ sample h => after (h.1.judgeSample sample)
    egressEnter := fun _ h => after h.1.egressEnter
    egressResume := fun _ h => after h.1.egressResume
    alarmPinChange := fun _ h => kept h rfl
    alarmAsserted := fun _ h => after h.1.alarmAsserted
    alarmClear := fun _ h => after h.1.alarmClear
    busyClear := fun _ h => after h.1.busyClear
    flashTimeout := fun _ h => after h.1.flashTimeout
    headerRead := fun _ bytes h => after (h.1.headerRead bytes)
    recordRead := fun _ bytes h => after (h.1.recordRead bytes) }

end

/-- R92: a grant is made in VALID, or changes nothing. -/
theorem State.grant_of_not_valid {s : State} (h : s.site.state ≠ .valid) : s.grant = s := by
  unfold State.grant
  rw [if_neg]
  simp [State.grantable, h]

/-- GRANT may begin a search, in VALID alone. -/
theorem State.Consistent.grant {s : State} (h : s.Consistent) : s.grant.Consistent := by
  have aligned := h.aligned.of_view s.grant_blockView
  by_cases valid : s.site.state = .valid
  · have site : s.grant.site.state = .valid := (congrArg BlockView.site s.grant_blockView).trans valid
    exact { aligned with searching := fun _ => .inl site : s.grant.Aligned s.grant.Searching }.consistent id
  · rwa [State.grant_of_not_valid valid]

/-- Every command leaves the blocks consistent. -/
theorem State.Consistent.exec {s : State} (h : s.Consistent) (canonical : Table.wf .cleared s.lanes = true) (c : Instr) :
    ∃ t, exec c s = .next t ∧ t.Consistent := by
  by_cases grants : c = .grant
  · subst grants
    refine ⟨s.event State.grant, rfl, ?_⟩
    unfold State.event
    split
    · exact h.grant
    · exact h
  · have guarded : s.SearchesGuarded := ⟨canonical, h.searching, fun reads => h.loads (h.reading (.inr (.inl reads)))⟩
    obtain ⟨t, next, aligned⟩ := (State.Aligned.carried s.Searching).exec ⟨h.aligned, id⟩ c
    obtain ⟨t', next', undisturbed⟩ := exec_undisturbed guarded grants
    obtain rfl : t = t' := by rw [next] at next'; exact Host.Outcome.next.inj next'
    refine ⟨t, next, aligned.consistent fun searching => ⟨?_, searching⟩⟩
    rcases undisturbed with keeps | none
    · exact not_not.mp fun idle => keeps.not_searching idle searching
    · exact absurd searching none

end Sys2Proof.Machine
end

section

open Sys2Proof Sys2Proof.Machine

/-- Settles O57: each block's operation keeps what the blocks hold together (`State.Aligned.carried`), and a search after
the command ran before it (`exec_undisturbed`) or was begun by GRANT in VALID. -/
theorem blocksStayConsistent : Obligations.BlocksStayConsistent := by
  intro s t canonical consistent next
  unfold step at next
  split at next
  · cases next
    exact consistent
  next c rest _ =>
    have taken : ({ s with pending := rest } : State).Consistent := { consistent with }
    obtain ⟨u, run, kept⟩ := taken.exec canonical.lanes c
    rw [run] at next
    cases next
    exact kept

end

section
/-! SUPPORT. The site tables record by record: what a written record leaves under every read, and that a table keeps its
canonical form and its ranges (R1, R17, R18, R161). -/

namespace Sys2Proof.Machine

section

variable {site : SiteStore} (h : site.Canonical) (i j : Nat) (r : Record)
include h

theorem SiteStore.Canonical.setRecord : (site.setRecord i r).Canonical := by
  cases r with
  | header r => exact { h with }
  | node r => exact { h with nodes := Table.wf_set _ h.nodes _ _ }
  | edge r => exact { h with edges := Table.wf_set _ h.edges _ _ }
  | adjacency r => exact { h with adjacency := Table.wf_set _ h.adjacency _ _ }
  | group r => exact { h with groups := Table.wf_set _ h.groups _ _ }
  | member r => exact { h with members := Table.wf_set _ h.members _ _ }
  | directory r => exact { h with directory := Table.wf_set _ h.directory _ _ }
  | gate r => exact { h with gates := Table.wf_set _ h.gates _ _ }
  | profile r => exact { h with profiles := Table.wf_set _ h.profiles _ _ }
  | screen r => exact { h with screens := Table.wf_set _ h.screens _ _ }
  | channel r => exact { h with channels := Table.wf_set _ h.channels _ _ }
  | schedule r => exact { h with schedule := Table.wf_set _ h.schedule _ _ }

/-- A written record reads back. -/
theorem SiteStore.Canonical.record_setRecord_self : (site.setRecord i r).record r.table i = r := by
  cases r with
  | header r => rfl
  | node r => exact congrArg Record.node (Table.get_set_self _ h.nodes _ _)
  | edge r => exact congrArg Record.edge (Table.get_set_self _ h.edges _ _)
  | adjacency r => exact congrArg Record.adjacency (Table.get_set_self _ h.adjacency _ _)
  | group r => exact congrArg Record.group (Table.get_set_self _ h.groups _ _)
  | member r => exact congrArg Record.member (Table.get_set_self _ h.members _ _)
  | directory r => exact congrArg Record.directory (Table.get_set_self _ h.directory _ _)
  | gate r => exact congrArg Record.gate (Table.get_set_self _ h.gates _ _)
  | profile r => exact congrArg Record.profile (Table.get_set_self _ h.profiles _ _)
  | screen r => exact congrArg Record.screen (Table.get_set_self _ h.screens _ _)
  | channel r => exact congrArg Record.channel (Table.get_set_self _ h.channels _ _)
  | schedule r => exact congrArg Record.schedule (Table.get_set_self _ h.schedule _ _)

end

section

variable (site : SiteStore) {i j : Nat} {r : Record}

/-- A written record leaves every other table as it reads. -/
theorem SiteStore.record_setRecord_of_table {t : TableId} (other : t ≠ r.table) :
    (site.setRecord i r).record t j = site.record t j := by
  cases r <;> cases t <;> first | rfl | exact absurd rfl other

/-- A written record leaves every other index of its table as it reads; the header is one record at every index. -/
theorem SiteStore.record_setRecord_of_index (counted : r.table ≠ .header) (other : j ≠ i) :
    (site.setRecord i r).record r.table j = site.record r.table j := by
  cases r with
  | header r => exact absurd rfl counted
  | node r => exact congrArg Record.node (Table.get_set_of_ne _ _ _ other)
  | edge r => exact congrArg Record.edge (Table.get_set_of_ne _ _ _ other)
  | adjacency r => exact congrArg Record.adjacency (Table.get_set_of_ne _ _ _ other)
  | group r => exact congrArg Record.group (Table.get_set_of_ne _ _ _ other)
  | member r => exact congrArg Record.member (Table.get_set_of_ne _ _ _ other)
  | directory r => exact congrArg Record.directory (Table.get_set_of_ne _ _ _ other)
  | gate r => exact congrArg Record.gate (Table.get_set_of_ne _ _ _ other)
  | profile r => exact congrArg Record.profile (Table.get_set_of_ne _ _ _ other)
  | screen r => exact congrArg Record.screen (Table.get_set_of_ne _ _ _ other)
  | channel r => exact congrArg Record.channel (Table.get_set_of_ne _ _ _ other)
  | schedule r => exact congrArg Record.schedule (Table.get_set_of_ne _ _ _ other)

/-- The header is one record at every index. -/
theorem SiteStore.record_of_header {t : TableId} (header : t = .header) (i j : Nat) : site.record t i = site.record t j := by
  subst header
  rfl

end

/-- The tables are canonical and every record lies in its range. -/
structure SiteStore.Sound (site : SiteStore) : Prop where
  canonical : site.Canonical
  ranges : ∀ t i, (site.record t i).inRange = true

theorem SiteStore.Sound.setRecord {site : SiteStore} (h : site.Sound) (i : Nat) {r : Record} (range : r.inRange = true) :
    (site.setRecord i r).Sound where
  canonical := h.canonical.setRecord i r
  ranges t j := by
    by_cases table : t = r.table
    · subst table
      by_cases index : j = i
      · rwa [index, h.canonical.record_setRecord_self]
      · by_cases header : r.table = .header
        · rwa [SiteStore.record_of_header _ header j i, h.canonical.record_setRecord_self]
        · rw [site.record_setRecord_of_index header index]
          exact h.ranges _ j
    · rw [site.record_setRecord_of_table table]
      exact h.ranges t j

theorem SiteStore.Sound.setRecords {records : List Record} (range : ∀ r ∈ records, r.inRange = true) (first : Nat)
    {site : SiteStore} (h : site.Sound) : (site.setRecords first records).Sound := by
  induction records generalizing site first with
  | nil => exact h
  | cons r rest ih =>
    rw [List.forall_mem_cons] at range
    exact ih range.2 (first + 1) (h.setRecord first range.1)

/-- What a site holds beside the header and the tables is not read. -/
theorem SiteStore.Sound.of_tables {site : SiteStore} (h : site.Sound) (state : SiteState) (generation : Word16)
    (drain : Option Drain) : ({ site with state := state, generation := generation, drain := drain } : SiteStore).Sound where
  canonical := { h.canonical with }
  ranges t i := Eq.trans (by cases t <;> rfl) (h.ranges t i)

theorem SiteStore.Sound.setHeader {site : SiteStore} (h : site.Sound) {header : Header} (range : header.inRange = true) :
    ({ site with header := header } : SiteStore).Sound := h.setRecord 0 (r := .header header) range

theorem SiteStore.cleared_sound : SiteStore.cleared.Sound where
  canonical := ⟨rfl, rfl, rfl, rfl, rfl, rfl, rfl, rfl, rfl, rfl, rfl⟩
  ranges t i := by cases t <;> rfl

/-- A list is read whole when each of its entries is read. -/
theorem mapM_eq_some_iff {α β : Type} {f : α → Option β} {l : List α} {r : List β} :
    l.mapM f = some r ↔ List.Forall₂ (fun x y => f x = some y) l r := by
  induction l generalizing r with
  | nil => simp [eq_comm]
  | cons x rest ih => cases r <;> simp [Option.bind_eq_some_iff, ih]

/-- R17 step 4, R161: the records that bytes stand for lie in their ranges. -/
theorem inRange_of_recordsOfBytes {t : TableId} {count : Nat} {bytes : List Byte} {records : List Record}
    (read : recordsOfBytes t count bytes = some records) : ∀ r ∈ records, r.inRange = true := by
  intro r hr
  obtain ⟨i, hi, rfl⟩ := List.mem_iff_getElem.mp hr
  obtain ⟨length, each⟩ := List.forall₂_iff_get.mp (mapM_eq_some_iff.mp read)
  exact Record.inRange_of_ofBytes (each i (length ▸ hi) hi)

end Sys2Proof.Machine
end

section
/-! SUPPORT. Every table of the part keeps its one canonical form, and every record of the site its range, under each
operation on the state (R1, R17, R23, R161). -/

namespace Sys2Proof.Machine

/-! ### What is read -/

/-- Every table of the part is canonical, and every record of the Site Store in range. -/
structure State.Tabled (s : State) : Prop where
  site : s.site.Sound
  closures : Table.wf .opened s.conditions.closures = true
  motions : Table.wf none s.conditions.motions = true
  gates : Table.wf .opened s.conditions.gates = true
  levels : Table.wf .off s.conditions.levels = true
  channels : Table.wf .cleared s.flow.channels = true
  screens : Table.wf .idle s.dispatcher.screens = true
  lanes : Table.wf .cleared s.lanes = true
  labels : ∀ l, Table.wf .unseen (s.lane l).labels = true
  slots : Table.wf none s.store.slots = true

theorem State.tabled_iff {s : State} : s.Tabled ↔ s.Canonical ∧ s.RecordsInRange :=
  ⟨fun h => ⟨{ h with site := h.site.canonical }, h.site.ranges⟩, fun ⟨h, r⟩ => { h with site := ⟨h.site, r⟩ }⟩

/-- The tables of the part outside the Site Store. -/
structure TableView where
  closures : Table Closure
  motions : Table (Option Motion)
  gates : Table Closure
  levels : Table Level
  channels : Table Channel
  screens : Table ScreenStatus
  lanes : Table Lane
  slots : Table (Option Slot)

def State.tableView (s : State) : TableView :=
  { closures := s.conditions.closures, motions := s.conditions.motions, gates := s.conditions.gates
    levels := s.conditions.levels, channels := s.flow.channels, screens := s.dispatcher.screens, lanes := s.lanes
    slots := s.store.slots }

theorem tabled_foldl {α : Type} {f : State → α → State} (each : ∀ s x, s.Tabled → (f s x).Tabled) (l : List α) {s : State}
    (h : s.Tabled) : (l.foldl f s).Tabled := by
  induction l generalizing s with
  | nil => exact h
  | cons x rest ih => exact ih (each s x h)

section

variable {s t : State} (h : s.Tabled)
include h

theorem State.Tabled.of_view (same : t.tableView = s.tableView) (site : t.site.Sound) : t.Tabled := by
  simp only [State.tableView, TableView.mk.injEq] at same
  obtain ⟨closures, motions, gates, levels, channels, screens, lanes, slots⟩ := same
  have lane (l : Nat) : t.lane l = s.lane l := congrArg (Table.get Lane.cleared · l) lanes
  exact {
    site := site
    closures := closures ▸ h.closures
    motions := motions ▸ h.motions
    gates := gates ▸ h.gates
    levels := levels ▸ h.levels
    channels := channels ▸ h.channels
    screens := screens ▸ h.screens
    lanes := lanes ▸ h.lanes
    labels := fun l => lane l ▸ h.labels l
    slots := slots ▸ h.slots }

theorem State.Tabled.offersOnly (offered : s.OffersOnly t) : t.Tabled := by
  obtain ⟨_, _, _, _, _, rfl⟩ := offered
  exact { h with }

/-! ### One write -/

theorem State.Tabled.setScreen (i : Nat) (v : ScreenStatus) : (s.setScreen i v).Tabled :=
  { h with screens := Table.wf_set _ h.screens i v }

theorem State.Tabled.setSlot (n : Nat) (v : Option Slot) : (s.setSlot n v).Tabled :=
  { h with slots := Table.wf_set _ h.slots n v }

theorem State.Tabled.setChannel (c : Nat) (v : Channel) : (s.setChannel c v).Tabled :=
  { h with channels := Table.wf_set _ h.channels c v }

theorem State.Tabled.setLane (l : Nat) {v : Lane} (labels : Table.wf .unseen v.labels = true) : (s.setLane l v).Tabled :=
  { h with
    lanes := Table.wf_set _ h.lanes l v
    labels := Table.get_set_all (p := fun _ lane => Table.wf .unseen lane.labels = true) h.lanes labels h.labels }

theorem State.Tabled.freeLane (l : Nat) : (s.freeLane l).Tabled := h.setLane l (h.labels l)

theorem State.Tabled.setSite {site : SiteStore} (sound : site.Sound) : ({ s with site := site } : State).Tabled :=
  { h with site := sound }

/-! Writes outside the tables. -/

theorem State.Tabled.offer (n : Notice) : (s.offer n).Tabled := { h with }

theorem State.Tabled.setQueue (queue : List QueueEntry) : (s.setQueue queue).Tabled := { h with }

theorem State.Tabled.setHolders (holders : List Nat) : (s.setHolders holders).Tabled := { h with }

theorem State.Tabled.setTransfer (u : TransferUnit) : (s.setTransfer u).Tabled := { h with }

theorem State.Tabled.setTurn (turn : TurnState) :
    ({ s with conditions := { s.conditions with turn := turn } } : State).Tabled := { h with }

theorem State.Tabled.setCycle (cycle : Option PollCycle) : (s.setCycle cycle).Tabled := { h with }

theorem State.Tabled.setEgress (e : EgressControl) : (s.setEgress e).Tabled := { h with }

theorem State.Tabled.markQueue (mark : Bool) : (s.markQueue mark).Tabled := { h with }

/-! ### Dropping, requeueing and withdrawing (R63, R94, R96, R97) -/

theorem State.Tabled.drops (reason : DropReason) (requests : List Request) :
    (requests.foldl (State.drop reason) s).Tabled :=
  tabled_foldl (fun _ r h => (h.setScreen r.screen .idle).offer _) requests h

theorem State.Tabled.dropQueue : s.dropQueue.Tabled := (h.drops .site _).setQueue []

theorem State.Tabled.requeue (requests : List Request) : (s.requeue requests).Tabled :=
  (tabled_foldl (fun _ r h => h.setScreen r.screen .queued) requests h).setQueue _

theorem State.Tabled.trimQueue : s.trimQueue.Tabled := (h.drops .mode _).setQueue _

theorem State.Tabled.takeBack (requests : List Request) : (s.takeBack requests).Tabled := by
  unfold State.takeBack
  split
  · exact ((h.drops .site _).requeue _).trimQueue
  · exact h.drops .site requests

theorem State.Tabled.withdraw (l : Nat) : (s.withdraw l).Tabled :=
  (h.setHolders _).freeLane l

theorem State.Tabled.handBack : s.handBack.Tabled := (tabled_foldl (fun _ l h => h.withdraw l) _ h).takeBack _

/-! ### Slots and records (R60, R77, R79, R81, R82, R94) -/

theorem State.Tabled.storeRecord (n l : Nat) (r : RouteRecord) : (s.storeRecord n l r).Tabled :=
  (((h.setSlot n _).setScreen r.screen (.ready n)).offer _).freeLane l

theorem State.Tabled.askSlot (l : Nat) (r : RouteRecord) : (s.askSlot l r).Tabled := by
  unfold State.askSlot
  split
  · exact h.storeRecord _ l r
  · exact (h.setLane l (v := { s.lane l with state := .holding, record := some r }) (h.labels l)).setHolders _

theorem State.Tabled.grantSlot (n : Nat) : (s.grantSlot n).Tabled := by
  unfold State.grantSlot
  split
  · exact h
  · split
    · exact h
    · exact (h.setHolders _).storeRecord n _ _

theorem State.Tabled.freeSlot (n screen : Nat) : (s.freeSlot n screen).Tabled :=
  ((h.setSlot n none).setScreen screen .idle).grantSlot n

theorem State.Tabled.slotGrant : s.slotGrant.Tabled := by
  unfold State.slotGrant
  split
  · exact h.grantSlot _
  · exact h

theorem State.Tabled.holdExpiry (n : Nat) : (s.holdExpiry n).Tabled := by
  unfold State.holdExpiry
  split
  · exact h
  · exact (h.offer _).freeSlot n _

theorem State.Tabled.collect (screen : Nat) : (s.collect screen).state.Tabled := by
  unfold State.collect
  split
  · exact h
  · split
    · split
      · exact h.freeSlot _ screen
      · exact h
    · exact h

theorem State.Tabled.cancel (screen : Nat) : (s.cancel screen).state.Tabled := by
  unfold State.cancel
  split
  · exact h
  · split
    · exact h
    · exact (h.setQueue _).setScreen screen .idle
    · exact (h.withdraw _).setScreen screen .idle
    · exact h.freeSlot _ screen

/-! ### Requests (R89, R92) -/

theorem State.Tabled.route (r : Request) : (s.route r).state.Tabled := by
  unfold State.route
  split
  · exact h
  · exact (h.setScreen r.screen .queued).setQueue _

theorem State.Tabled.startSearch (l : Nat) (r : Request) : (s.startSearch l r).Tabled := by
  have begun : (s.setLane l (s.searchingLane l r)).Tabled := h.setLane l (h.labels l)
  unfold State.startSearch
  dsimp only
  split
  · exact begun.askSlot l _
  · split
    · exact begun.askSlot l _
    · exact begun

theorem State.Tabled.grant : s.grant.Tabled := by
  unfold State.grant State.grantEntry
  split
  · split
    · split
      · exact h
      · exact ((h.setQueue _).setScreen _ _).startSearch _ _
    · exact h
  · exact h

end

/-! ### Searches (R45, R53 to R55) -/

section

variable {f : Frontier} (h : Table.wf .unseen f.labels = true)
include h

theorem Frontier.labels_offer (node label edge : Nat) : Table.wf .unseen (f.offer node label edge).labels = true := by
  have marked (pred : Option Nat) : Table.wf .unseen (f.mark node label pred) = true := Table.wf_set _ h _ _
  unfold Frontier.offer
  split
  · exact h
  · unfold Frontier.insert
    split
    · exact marked _
    · split
      · exact h
      · split
        · exact Table.wf_set _ (marked _) _ _
        · exact h
  · split
    · exact marked _
    · exact h

theorem Frontier.labels_examine (s : State) (ctx : SearchContext) (u label e : Nat) :
    Table.wf .unseen (s.examine ctx u label f e).labels = true := by
  unfold State.examine
  split
  split
  · exact h
  · exact Frontier.labels_offer h _ _ _

theorem Frontier.labels_examines (s : State) (ctx : SearchContext) (u label : Nat) (edges : List Nat) :
    Table.wf .unseen (edges.foldl (s.examine ctx u label) f).labels = true := by
  induction edges generalizing f with
  | nil => exact h
  | cons e rest ih => exact ih (Frontier.labels_examine h s ctx u label e)

theorem Frontier.labels_settle (s : State) (ctx : SearchContext) (targets : List (Nat × Option Nat)) (fuel : Nat) :
    Table.wf .unseen (s.settle ctx targets fuel f).1.labels = true := by
  induction fuel generalizing f with
  | zero => exact h
  | succ fuel ih =>
    unfold State.settle
    split
    · exact h
    next label u rest _ =>
      have settled := Table.wf_set _ h u (.settled label (f.label u).pred)
      dsimp only
      split
      · exact settled
      · exact ih (Frontier.labels_examines settled s ctx u label _)

end

theorem State.labels_search {s : State} {lane : Lane} (h : Table.wf .unseen lane.labels = true) (ctx : SearchContext) :
    Table.wf .unseen (s.search lane ctx).1.labels = true :=
  Frontier.labels_settle (f := s.startFrontier lane ctx.origin) (Table.wf_set _ (Table.wfFrom_filter _ _ h) _ _) s ctx _ _

theorem ConditionUnit.EditsCanonical.writes {u : ConditionUnit} (h : u.EditsCanonical) (edits : List Edit) :
    (edits.foldl ConditionUnit.write u).EditsCanonical := by
  induction edits generalizing u with
  | nil => exact h
  | cons e rest ih => exact ih (h.write e)

theorem State.wf_publishedNow (s : State) : Table.wf .off s.publishedNow = true := by
  unfold State.publishedNow
  exact Table.wf_tabulate _ _ _

/-- R160: a header that passes H1 to H5 is in range. -/
theorem inRange_of_headerFailure {bytes : List Byte} {address : Nat} (passes : headerFailure bytes address = none) :
    (headerOf bytes).inRange = true := by
  rw [headerFailure, ite_eq_iff, ite_eq_iff, ite_eq_iff] at passes
  simp only [reduceCtorEq, and_false, false_or] at passes
  obtain ⟨-, -, range, -⟩ := passes
  simpa using range

section

variable {s t : State} (h : s.Tabled)
include h

theorem State.Tabled.recordComplete (l : Nat) : (s.recordComplete l).Tabled := by
  unfold State.recordComplete State.completeSearch
  dsimp only
  split
  · split
    next ctx _ _ =>
      have searched : (s.withSearch l (s.search (s.lane l) ctx).1).Tabled :=
        h.setLane l (State.labels_search (h.labels l) ctx)
      split <;> exact searched.askSlot l _
    · exact h
  · exact h

/-! ### Turns and the site state (R13 to R22, R110, R111) -/

theorem State.Tabled.applied : s.applied.Tabled := by
  have written := ConditionUnit.EditsCanonical.writes (u := s.conditions) ⟨h.closures, h.motions, h.gates⟩ s.conditions.edits
  have levels := s.wf_publishedNow
  unfold State.applied
  generalize s.conditions.edits.foldl ConditionUnit.write s.conditions = u at written ⊢
  generalize s.publishedNow = p at levels ⊢
  exact { h with
      closures := written.closures
      motions := written.motions
      gates := written.gates
      levels := levels }

theorem State.Tabled.applyTurn (cause : TurnCause) : (s.applyTurn cause).Tabled := by
  unfold State.applyTurn
  exact ((h.applied.offer _).setTurn .idle).offersOnly (State.offerEntries_offersOnly _ _)

theorem State.Tabled.beginTurn (cause : TurnCause) : (s.beginTurn cause).Tabled := by
  unfold State.beginTurn
  split
  · exact { h with }
  · exact h.applyTurn cause

theorem State.Tabled.askTurn (cause : TurnCause) : (s.askTurn cause).Tabled := by
  unfold State.askTurn
  split
  · exact h.beginTurn cause
  · exact h

theorem State.Tabled.turnNow : s.turnNow.state.Tabled := by
  unfold State.turnNow
  split
  · exact h
  · split
    · exact h
    · split
      · exact h.beginTurn .request
      · exact h

theorem State.Tabled.turnTimerExpiry : s.turnTimerExpiry.Tabled := by
  unfold State.turnTimerExpiry
  split
  · exact h
  · have started : ({ s with conditions :=
        { s.conditions with timer := some s.link.parameters.turnPeriod } } : State).Tabled := { h with }
    exact started.askTurn .timer

theorem State.Tabled.applyStep : s.applyStep.Tabled := by
  unfold State.applyStep
  split
  · split
    · exact h
    · exact h.applyTurn _
  · exact h

theorem State.Tabled.minuteBoundary : s.minuteBoundary.Tabled := by
  unfold State.minuteBoundary
  split
  · have passed : ({ s with schedule := { s.schedule with boundaryDue := false } } : State).Tabled := { h with }
    dsimp only
    split
    · exact passed.offersOnly (State.offerEntries_offersOnly _ _)
    · exact passed
  · exact h

theorem State.Tabled.setClock (second day : Nat) : (s.setClock second day).state.Tabled := by
  unfold State.setClock
  split
  · exact h
  · have written : (s.writeClock second day).Tabled := { h with }
    unfold accept
    dsimp only
    split
    · exact (written.offersOnly (State.catchUp_offersOnly _)).askTurn .schedule
    · exact written

theorem State.Tabled.condition (target : Option Target) (value : Nat) : (s.condition target value).state.Tabled := by
  unfold State.condition
  split
  · exact h
  · split
    · exact h
    · split
      · exact h
      · split
        · exact h
        · split <;> exact { h with }

theorem State.Tabled.moveSite (next : SiteState) : (s.moveSite next).Tabled :=
  { h with site := h.site.of_tables next _ _ }

theorem State.Tabled.moveSiteWithNotice (next : SiteState) (cause : SiteCause) : (s.moveSiteWithNotice next cause).Tabled :=
  { h.moveSite next with }

theorem State.Tabled.setDrain (drain : Option Drain) : (s.setDrain drain).Tabled :=
  { h with site := h.site.of_tables _ _ drain }

theorem State.Tabled.proceed (work : Drain) (cause : SiteCause) : (s.proceed work cause).Tabled := by
  cases work with
  | openSession => exact h.moveSiteWithNotice .editing cause
  | load address => exact { h.moveSiteWithNotice .loading cause with }

theorem State.Tabled.leaveValid (work : Drain) (cause : SiteCause) : (s.leaveValid work cause).Tabled := by
  unfold State.leaveValid
  dsimp only
  split
  · exact (h.dropQueue.setDrain _).moveSiteWithNotice .draining cause
  · exact h.dropQueue.proceed work cause

theorem State.Tabled.siteOpen : s.siteOpen.state.Tabled := by
  unfold State.siteOpen
  split
  · exact h
  · split
    · exact h
    · split
      · exact h.proceed .openSession .openSession
      · exact h.proceed .openSession .openSession
      · exact h
      · exact h.leaveValid .openSession .openSession
      · exact h
      · exact h

theorem State.Tabled.siteLoad (address : Nat) : (s.siteLoad address).state.Tabled := by
  unfold State.siteLoad
  split
  · exact h
  · split
    · exact h
    · split
      · exact h
      · split
        · exact h.proceed (.load address) .load
        · exact h.proceed (.load address) .load
        · exact h.proceed (.load address) .load
        · exact h.leaveValid (.load address) .load
        · exact h
        · exact h

theorem State.Tabled.drainEnd : s.drainEnd.Tabled := by
  unfold State.drainEnd
  split
  · split
    · exact (h.setDrain none).proceed _ .drain
    · exact h
  · exact h

theorem State.Tabled.enterValid (cause : SiteCause) : (s.enterValid cause).Tabled := by
  have base : (s.entryBase cause).Tabled :=
    { h with
      site := h.site.of_tables .valid (s.site.generation + 1) _
      closures := s.entryBase_closures cause ▸ Table.wf_tabulate _ _ _
      motions := s.entryBase_motions cause ▸ Table.wf_tabulate _ _ _
      gates := s.entryBase_gates cause ▸ Table.wf_tabulate _ _ _
      levels := s.entryBase_levels cause ▸ Table.wf_tabulate _ _ _
      channels := s.entryBase_channels cause ▸ Table.wf_tabulate _ _ _ }
  exact { (base.offersOnly (s.entryCaughtUp_offersOnly cause)).applyTurn .site with }

theorem State.Tabled.siteClose : s.siteClose.state.Tabled := by
  unfold State.siteClose
  split
  · exact h
  · split
    · split
      · exact h.enterValid .close
      · exact h.moveSiteWithNotice .invalid .close
    · exact h

theorem State.Tabled.tableWrite (table first : Nat) (bytes : List Byte) : (s.tableWrite table first bytes).state.Tabled := by
  unfold State.tableWrite
  split
  · exact h
  · split
    · exact h
    · dsimp only
      split
      · exact h
      · split
        · exact h
        next read => exact h.setSite (h.site.setRecords (inRange_of_recordsOfBytes read) first)

/-! ### Transfers (R160 to R166) -/

theorem State.Tabled.failLoad (outcome : TransferOutcome) : (s.failLoad outcome).Tabled :=
  { h.moveSiteWithNotice .invalid .load with }

theorem State.Tabled.headerRead (bytes : List Byte) : (s.headerRead bytes).Tabled := by
  unfold State.headerRead
  split
  · split
    · unfold State.noteLength
      split
      · exact (h.setTransfer _).failLoad _
      · exact h.failLoad _
    next accepted => exact { h with site := h.site.setHeader (inRange_of_headerFailure accepted) }
  · exact h

theorem State.Tabled.finishTables : s.finishTables.Tabled := by
  unfold State.finishTables State.validateLoad
  dsimp only
  split
  · split
    · exact h.failLoad _
    · exact { h.enterValid .load with }
  · exact h.failLoad _

theorem State.Tabled.recordRead (bytes : List Byte) : (s.recordRead bytes).Tabled := by
  unfold State.recordRead State.readRecord
  split
  · split
    · dsimp only
      split
      · exact (h.setTransfer _).failLoad _
      next read =>
        have sound := fun i => h.site.setRecord i (Record.inRange_of_ofBytes read)
        split
        · exact ((h.setTransfer _).setSite (sound _)).setTransfer _
        · exact (((h.setTransfer _).setSite (sound _)).setTransfer _).finishTables
    · exact h
  · exact h

theorem State.Tabled.siteDump (address : Nat) : (s.siteDump address).state.Tabled := by
  unfold State.siteDump
  split
  · exact h
  · split
    · exact h
    · split
      · exact h
      · split
        · exact h
        · exact { h with }

theorem State.Tabled.programNext (offset : Nat) : (s.programNext offset).Tabled := by
  unfold State.programNext
  split <;> exact { h with }

theorem State.Tabled.busyClear : s.busyClear.Tabled := by
  unfold State.busyClear State.eraseNext
  split
  · split
    · exact { h with }
    · exact { h with }
    · exact h
  · split
    · exact { h with }
    · exact h.programNext 0
  · split
    · exact { h with }
    · exact h.programNext _
  · exact h
  · exact h
  · exact h
  · exact h

theorem State.Tabled.flashTimeout : s.flashTimeout.Tabled := by
  unfold State.flashTimeout
  dsimp only
  split
  · split
    · exact h.failLoad _
    · exact { h with }
    · exact h
  · exact h

/-! ### The Flow Monitor (R120, R122) -/

theorem State.Tabled.processCycle (samples : List (Nat × Option Nat)) : (s.processCycle samples).Tabled :=
  tabled_foldl (fun _ sample h =>
    tabled_foldl (fun _ n h => h.offer n) _ (h.setChannel sample.1 _)) _ h

theorem State.Tabled.sampleTimerExpiry : s.sampleTimerExpiry.Tabled := by
  unfold State.sampleTimerExpiry
  split
  · exact h
  · dsimp only
    split <;> exact { h with }

theorem State.Tabled.pollSent : s.pollSent.Tabled := by
  unfold State.pollSent
  split
  · split
    · exact { h with }
    · exact h
  · exact h

theorem State.Tabled.judgeSample (sample : PollCycle → Option Nat) : (s.judgeSample sample).Tabled := by
  unfold State.judgeSample
  split
  · exact h
  · split
    · dsimp only
      split
      · exact { h with }
      · exact (h.setCycle none).processCycle _
    · exact h

/-! ### Egress Control (R149 to R155) -/

theorem State.Tabled.abandonDrain : s.abandonDrain.Tabled := by
  unfold State.abandonDrain
  split
  · exact { (h.setDrain none).moveSite .valid with }
  · exact h

theorem State.Tabled.enterEgress (cause : EntryCause) : (s.enterEgress cause).Tabled :=
  ((h.setEgress { s.egress with mode := .egress, cause := some cause }).abandonDrain.markQueue true).handBack.offer _

theorem State.Tabled.egressEnter : s.egressEnter.state.Tabled := by
  unfold State.egressEnter
  split
  · exact h
  · exact h.enterEgress .drill

theorem State.Tabled.egressResume : s.egressResume.state.Tabled := by
  unfold State.egressResume
  split
  · exact h
  · split
    · exact h
    · exact ((h.setEgress { s.egress with mode := .normal, cause := none }).markQueue false).handBack.offer _

theorem State.Tabled.alarmAsserted : s.alarmAsserted.Tabled := by
  have taken : (s.takeLevel true).Tabled := { h with }
  unfold State.alarmAsserted
  split
  · dsimp only
    split
    · exact taken.enterEgress .alarm
    · exact { h with }
  · exact h

theorem State.Tabled.alarmClear : s.alarmClear.Tabled := by
  unfold State.alarmClear
  split
  · dsimp only
    split <;> exact { h with }
  · exact h

/-! ### Resets (R23, R24, R66, R165) -/

theorem State.Tabled.assertReset (rate : BitVec 2) (bootld : Bool) : (s.assertReset rate bootld).Tabled := by
  unfold State.assertReset State.abortTransfer
  split <;> exact { h with }

theorem State.Tabled.softResetAll : s.softResetAll.Tabled :=
  { h with
    site := h.site.of_tables _ _ none
    screens := rfl
    lanes := Table.wf_tabulate _ _ _
    labels := fun l => by
      have lane : s.softResetAll.lane l = if l < Config.lanes then (s.lane l).softReset else .cleared :=
        Table.get_tabulate _ _ _ l
      rw [lane]
      split
      · exact h.labels l
      · rfl
    slots := rfl }

end

theorem State.reset_tabled : State.reset.Tabled :=
  ⟨SiteStore.cleared_sound, rfl, rfl, rfl, rfl, rfl, rfl, rfl, fun _ => rfl, rfl⟩

theorem State.powerOn_tabled (s : State) (rate : BitVec 2) (bootld alarm : Bool) : (s.powerOn rate bootld alarm).Tabled := by
  have empty : ({ State.reset with
      pending := s.pending
      pins := { resetAsserted := false, rate := rate, bootld := bootld }
      egress := .afterPowerOn alarm } : State).Tabled := { State.reset_tabled with }
  unfold State.powerOn State.bootLoad
  split
  · exact { empty.moveSite .loading with }
  · exact empty

/-! ### Every command -/

theorem State.Tabled.carried : Carried State.Tabled State.Tabled where
  same _ h := h
  linkBefore _ _ h := { h with }
  linkAfter _ _ h := { h with }
  powerOn s rate bootld alarm _ := s.powerOn_tabled rate bootld alarm
  assertReset _ rate bootld h := h.assertReset rate bootld
  softResetAll _ h := h.softResetAll
  siteOpen _ h := h.siteOpen
  siteClose _ h := h.siteClose
  tableWrite _ table first bytes h := h.tableWrite table first bytes
  siteLoad _ address h := h.siteLoad address
  siteDump _ address h := h.siteDump address
  drainEnd _ h := h.drainEnd
  condition _ target value h := h.condition target value
  turnNow _ h := h.turnNow
  turnTimerExpiry _ h := h.turnTimerExpiry
  applyStep _ h := h.applyStep
  tick _ h := { h with }
  minuteBoundary _ h := h.minuteBoundary
  setClock _ second day h := h.setClock second day
  route _ r h := h.route r
  grant _ h := h.grant
  cancel _ screen h := h.cancel screen
  recordComplete _ l _ h := h.recordComplete l
  slotGrant _ h := h.slotGrant
  holdExpiry _ n h := h.holdExpiry n
  collect _ screen h := h.collect screen
  sampleTimerExpiry _ h := h.sampleTimerExpiry
  pollSent _ h := h.pollSent
  judgeSample _ sample h := h.judgeSample sample
  egressEnter _ h := h.egressEnter
  egressResume _ h := h.egressResume
  alarmPinChange _ h := { h with }
  alarmAsserted _ h := h.alarmAsserted
  alarmClear _ h := h.alarmClear
  busyClear _ h := h.busyClear
  flashTimeout _ h := h.flashTimeout
  headerRead _ bytes h := h.headerRead bytes
  recordRead _ bytes h := h.recordRead bytes

end Sys2Proof.Machine
end

section

open Sys2Proof Sys2Proof.Machine

/-- Settles O55: one write keeps a table canonical (`Table.wf_set`), and a record is written only in its range
(`SiteStore.Sound.setRecord`); every command writes by these (`State.Tabled.carried`). -/
theorem tablesStayCanonicalAndInRange : Obligations.TablesStayCanonicalAndInRange := fun _ _ canonical ranges next =>
  State.tabled_iff.mp (State.Tabled.carried.step (State.tabled_iff.mpr ⟨canonical, ranges⟩) (fun _ _ h => { h with }) next)

end

section
/-! SUPPORT. Records whose totals are the sums over their legs (R36 to R39, R71 to R73), and what each command that moves or
makes a record keeps of them. -/

namespace Sys2Proof.Machine

/-! ### The sums of a route (R71, R72) -/

theorem Leg.merged_time (current next : Leg) : (current.merged next).time = current.time + next.time := rfl

theorem Leg.merged_distance (current next : Leg) : (current.merged next).distance = current.distance + next.distance := rfl

/-- A total over legs that a merge adds up: the time or the distance. -/
structure MergesAdd (f : Leg → Nat) : Prop where
  merged : ∀ current next, f (current.merged next) = f current + f next

section

variable {f : Leg → Nat} (h : MergesAdd f)
include h

/-- R71: joining a leg adds it to the total. -/
theorem MergesAdd.joinLeg (legs : List Leg) (next : Leg) : ((joinLeg legs next).map f).sum = (legs.map f).sum + f next := by
  unfold Machine.joinLeg
  split
  · simp
  · split
    · simp [h.merged]; omega
    · simp; omega

theorem MergesAdd.joinLegs (own legs : List Leg) :
    ((own.foldl Machine.joinLeg legs).map f).sum = (legs.map f).sum + (own.map f).sum := by
  induction own generalizing legs with
  | nil => simp
  | cons next rest ih => rw [List.foldl_cons, ih, h.joinLeg, List.map_cons, List.sum_cons, Nat.add_assoc]

/-- R71: condensing keeps the total of the traversals' own legs. -/
theorem MergesAdd.condense (s : State) (facing : Nat) (route : List Traversal) :
    ((s.condense facing route).map f).sum = ((s.ownLegs (some facing) route).map f).sum := by
  rw [State.condense, List.map_reverse, List.sum_reverse, h.joinLegs]
  simp

end

theorem State.ownLegs_map {β : Type} (s : State) {f : Leg → β} {g : Traversal → β}
    (each : ∀ before t, f (s.legOf before t) = g t) (before : Option Nat) (route : List Traversal) :
    (s.ownLegs before route).map f = route.map g := by
  induction route generalizing before with
  | nil => rfl
  | cons t rest ih => simp [State.ownLegs, each, ih]

/-- R72: the ONWARD leg keeps a total that it sums itself. -/
theorem State.checkLegs_sum (s : State) (target : Nat) {f : Leg → Nat}
    (onward : ∀ rest, f (s.onwardLeg target rest) = (rest.map f).sum) (legs : List Leg) :
    ((s.checkLegs target legs).1.map f).sum = (legs.map f).sum := by
  unfold State.checkLegs
  split
  · rfl
  · conv_rhs => rw [← List.take_append_drop (Config.legs - 1) legs]
    simp [onward]

/-- R72: a record has at most 40 legs. -/
theorem State.checkLegs_length (s : State) (target : Nat) (legs : List Leg) :
    (s.checkLegs target legs).1.length ≤ 40 := by
  unfold State.checkLegs
  split
  next few => exact few
  · rw [List.length_append, List.length_take]
    exact Nat.add_le_add_right (Nat.min_le_left _ _) 1

/-- R36, R39: the legs of a record take the time and the distance of its route. -/
theorem State.recordLegs_time (s : State) (facing target : Nat) (route : List Traversal) :
    ((s.checkLegs target (s.condense facing route)).1.map Leg.time).sum = (route.map Traversal.cost).sum := by
  rw [s.checkLegs_sum target (fun _ => rfl), MergesAdd.condense ⟨Leg.merged_time⟩,
    s.ownLegs_map (g := Traversal.cost) fun _ _ => rfl]

theorem State.recordLegs_distance (s : State) (facing target : Nat) (route : List Traversal) :
    ((s.checkLegs target (s.condense facing route)).1.map Leg.distance).sum = (route.map Traversal.length).sum := by
  rw [s.checkLegs_sum target (fun _ => rfl), MergesAdd.condense ⟨Leg.merged_distance⟩,
    s.ownLegs_map (g := Traversal.length) fun _ _ => rfl]

/-! ### The records that a lane completes (R49, R50, R57 to R59) -/

/-- R37: halves round up, and any time that is not none is a minute at least. -/
theorem minutesOf_eq (seconds : Nat) : minutesOf seconds = if seconds = 0 then 0 else max 1 ((seconds + 30) / 60) := by
  unfold minutesOf
  simp only [Bool.and_eq_true, decide_eq_true_eq]
  split <;> split <;> omega

theorem recordWithoutRoute_addsUp (lane : Lane) (q : Request) (ctx : SearchContext) (status : RouteStatus) :
    (recordWithoutRoute lane q ctx status).AddsUp :=
  ⟨rfl, rfl, Nat.zero_le _, by simp [recordWithoutRoute], rfl, fun _ => rfl⟩

theorem State.arrivedRecord_addsUp (s : State) (lane : Lane) (q : Request) (ctx : SearchContext) :
    (s.arrivedRecord lane q ctx).AddsUp :=
  { recordWithoutRoute_addsUp lane q ctx .arrived with }

theorem State.foundRecord_addsUp {s : State} {ctx : SearchContext} {labels : Table LabelEntry} {target label : Nat}
    (route : s.RouteTo ctx (s.rebuild ctx labels target) target label) (lane : Lane) (q : Request) :
    (s.foundRecord lane q ctx labels target label).AddsUp where
  time := route.total.symm.trans (s.recordLegs_time _ _ _).symm
  distance := (s.recordLegs_distance _ _ _).symm
  count := s.checkLegs_length _ _
  seconds := rfl
  minutes := minutesOf_eq _
  noRoute other := absurd rfl other

/-- R73: the record of a search of a validated site adds up. -/
theorem State.searchRecord_addsUp {s : State} {lane : Lane} {ctx : SearchContext} (site : s.SearchesSite ctx)
    (labels : Table.wf .unseen lane.labels = true) (q : Request) : (s.searchRecord lane q ctx).AddsUp := by
  rcases ending : (s.search lane ctx).2 with _ | ⟨target, label⟩
  · rw [State.searchRecord_unreachable ending]
    exact recordWithoutRoute_addsUp _ q ctx _
  · rw [State.searchRecord_found ending]
    exact State.foundRecord_addsUp ((State.search_ended site labels).rebuild site ending) _ q

/-! ### The records that lanes and slots hold -/

/-- Every record that a slot or a lane holds adds up, and the tables of both are canonical. -/
structure State.Summed (s : State) : Prop where
  records : s.RecordsAddUp
  lanes : Table.wf .cleared s.lanes = true
  slots : Table.wf none s.store.slots = true

/-- What the records rest on before a command: each search runs on a validated site. -/
structure State.SummedSearches (s : State) : Prop where
  summed : s.Summed
  labels : ∀ l, Table.wf .unseen (s.lane l).labels = true
  site : ∀ l ctx, l < 4 → (s.lane l).state = .searching → (s.lane l).context = some ctx → s.SearchesSite ctx

theorem summed_foldl {α : Type} {f : State → α → State} (each : ∀ s x, s.Summed → (f s x).Summed) (l : List α) {s : State}
    (h : s.Summed) : (l.foldl f s).Summed := by
  induction l generalizing s with
  | nil => exact h
  | cons x rest ih => exact ih (each s x h)

section

variable {s t : State} (h : s.Summed)
include h

theorem State.Summed.of_work (same : t.work = s.work) : t.Summed := by
  have lanes : t.lanes = s.lanes := congrArg Work.lanes same
  have slots : t.store.slots = s.store.slots := congrArg (fun w : Work => w.store.slots) same
  have lane (l : Nat) : t.lane l = s.lane l := congrArg (Table.get Lane.cleared · l) lanes
  have slot (n : Nat) : t.slot n = s.slot n := congrArg (Table.get none · n) slots
  exact {
    records := ⟨fun n x held => h.records.slots n x (slot n ▸ held), fun l r held => h.records.lanes l r (lane l ▸ held)⟩
    lanes := lanes ▸ h.lanes
    slots := slots ▸ h.slots }

theorem State.Summed.setScreen (i : Nat) (v : ScreenStatus) : (s.setScreen i v).Summed :=
  { h with records := { h.records with } }

theorem State.Summed.setQueue (queue : List QueueEntry) : (s.setQueue queue).Summed := { h with records := { h.records with } }

theorem State.Summed.setHolders (holders : List Nat) : (s.setHolders holders).Summed :=
  { h with records := { h.records with } }

theorem State.Summed.offer (n : Notice) : (s.offer n).Summed := { h with records := { h.records with } }

theorem State.Summed.setLane (l : Nat) {v : Lane} (record : ∀ r, v.record = some r → r.AddsUp) : (s.setLane l v).Summed where
  records :=
    { slots := h.records.slots
      lanes := Table.get_set_all (p := fun _ lane => ∀ r, lane.record = some r → r.AddsUp) h.lanes record h.records.lanes }
  lanes := Table.wf_set _ h.lanes l v
  slots := h.slots

theorem State.Summed.setSlot (n : Nat) {v : Option Slot} (record : ∀ x, v = some x → x.record.AddsUp) :
    (s.setSlot n v).Summed where
  records :=
    { slots := Table.get_set_all (p := fun _ slot => ∀ x, slot = some x → x.record.AddsUp) h.slots record h.records.slots
      lanes := h.records.lanes }
  lanes := h.lanes
  slots := Table.wf_set _ h.slots n v

theorem State.Summed.freeLane (l : Nat) : (s.freeLane l).Summed := h.setLane l nofun

/-! Dropping, requeueing and withdrawing (R63, R94, R96, R97). -/

theorem State.Summed.drops (reason : DropReason) (requests : List Request) :
    (requests.foldl (State.drop reason) s).Summed :=
  summed_foldl (fun _ r h => (h.setScreen r.screen .idle).offer _) requests h

theorem State.Summed.dropQueue : s.dropQueue.Summed := (h.drops .site _).setQueue []

theorem State.Summed.requeue (requests : List Request) : (s.requeue requests).Summed :=
  (summed_foldl (fun _ r h => h.setScreen r.screen .queued) requests h).setQueue _

theorem State.Summed.trimQueue : s.trimQueue.Summed := (h.drops .mode _).setQueue _

theorem State.Summed.takeBack (requests : List Request) : (s.takeBack requests).Summed := by
  unfold State.takeBack
  split
  · exact ((h.drops .site _).requeue _).trimQueue
  · exact h.drops .site requests

theorem State.Summed.withdraw (l : Nat) : (s.withdraw l).Summed := (h.setHolders _).freeLane l

theorem State.Summed.handBack : s.handBack.Summed := (summed_foldl (fun _ l h => h.withdraw l) _ h).takeBack _

theorem State.Summed.leaveValid (work : Drain) (cause : SiteCause) : (s.leaveValid work cause).Summed := by
  unfold State.leaveValid
  dsimp only
  split
  · exact h.dropQueue.of_work rfl
  · exact h.dropQueue.of_work (State.proceed_work _ work cause)

theorem State.Summed.siteOpen : s.siteOpen.state.Summed := by
  unfold State.siteOpen
  split
  · exact h
  · split
    · exact h
    · split
      · exact h.of_work (s.proceed_work _ _)
      · exact h.of_work (s.proceed_work _ _)
      · exact h
      · exact h.leaveValid _ _
      · exact h
      · exact h

theorem State.Summed.siteLoad (address : Nat) : (s.siteLoad address).state.Summed := by
  unfold State.siteLoad
  split
  · exact h
  · split
    · exact h
    · split
      · exact h
      · split
        · exact h.of_work (s.proceed_work _ _)
        · exact h.of_work (s.proceed_work _ _)
        · exact h.of_work (s.proceed_work _ _)
        · exact h.leaveValid _ _
        · exact h
        · exact h

theorem State.Summed.markQueue (mark : Bool) : (s.markQueue mark).Summed := h.setQueue _

theorem State.Summed.enterEgress (cause : EntryCause) : (s.enterEgress cause).Summed := by
  have entered : (s.setEgress { s.egress with mode := .egress, cause := some cause }).Summed := h.of_work rfl
  exact ((entered.of_work (State.abandonDrain_work _)).markQueue true).handBack.offer _

theorem State.Summed.egressEnter : s.egressEnter.state.Summed := by
  unfold State.egressEnter
  split
  · exact h
  · exact h.enterEgress .drill

theorem State.Summed.egressResume : s.egressResume.state.Summed := by
  unfold State.egressResume
  split
  · exact h
  · split
    · exact h
    · have resumed : (s.setEgress { s.egress with mode := .normal, cause := none }).Summed := h.of_work rfl
      exact (resumed.markQueue false).handBack.offer _

theorem State.Summed.alarmAsserted : s.alarmAsserted.Summed := by
  have taken : (s.takeLevel true).Summed := h.of_work rfl
  unfold State.alarmAsserted
  split
  · dsimp only
    split
    · exact taken.enterEgress .alarm
    · exact taken.offer _
  · exact h

/-! Slots, records and requests (R60, R77, R79, R81, R82, R89, R92, R94). -/

theorem State.Summed.storeRecord (n l : Nat) {r : RouteRecord} (sums : r.AddsUp) : (s.storeRecord n l r).Summed :=
  (((h.setSlot n fun _ held => Option.some.inj held ▸ sums).setScreen r.screen (.ready n)).offer _).freeLane l

theorem State.Summed.askSlot (l : Nat) {r : RouteRecord} (sums : r.AddsUp) : (s.askSlot l r).Summed := by
  unfold State.askSlot
  split
  · exact h.storeRecord _ l sums
  · exact (h.setLane l (v := { s.lane l with state := .holding, record := some r })
      fun _ held => Option.some.inj held ▸ sums).setHolders _

theorem State.Summed.grantSlot (n : Nat) : (s.grantSlot n).Summed := by
  unfold State.grantSlot
  split
  · exact h
  next l rest _ =>
    split
    · exact h
    next record held => exact (h.setHolders rest).storeRecord n l (h.records.lanes l record held)

theorem State.Summed.freeSlot (n screen : Nat) : (s.freeSlot n screen).Summed :=
  ((h.setSlot n (v := none) nofun).setScreen screen .idle).grantSlot n

theorem State.Summed.slotGrant : s.slotGrant.Summed := by
  unfold State.slotGrant
  split
  · exact h.grantSlot _
  · exact h

theorem State.Summed.holdExpiry (n : Nat) : (s.holdExpiry n).Summed := by
  unfold State.holdExpiry
  split
  · exact h
  · exact (h.offer _).freeSlot n _

theorem State.Summed.collect (screen : Nat) : (s.collect screen).state.Summed := by
  unfold State.collect
  split
  · exact h
  · split
    · split
      · exact h.freeSlot _ screen
      · exact h
    · exact h

theorem State.Summed.cancel (screen : Nat) : (s.cancel screen).state.Summed := by
  unfold State.cancel
  split
  · exact h
  · split
    · exact h
    · exact (h.setQueue _).setScreen screen .idle
    · exact (h.withdraw _).setScreen screen .idle
    · exact h.freeSlot _ screen

theorem State.Summed.route (r : Request) : (s.route r).state.Summed := by
  unfold State.route
  split
  · exact h
  · exact (h.setScreen r.screen .queued).setQueue _

theorem State.Summed.startSearch (l : Nat) (r : Request) : (s.startSearch l r).Summed := by
  have begun : (s.setLane l (s.searchingLane l r)).Summed := h.setLane l nofun
  unfold State.startSearch
  dsimp only
  split
  · exact begun.askSlot l (recordWithoutRoute_addsUp _ _ _ _)
  · split
    · exact begun.askSlot l (State.arrivedRecord_addsUp _ _ _ _)
    · exact begun

theorem State.Summed.grant : s.grant.Summed := by
  unfold State.grant State.grantEntry
  split
  · split
    · split
      · exact h
      · exact ((h.setQueue _).setScreen _ _).startSearch _ _
    · exact h
  · exact h

end

/-- R66, R84: a soft reset discards every record. -/
theorem State.softResetAll_summed (s : State) : s.softResetAll.Summed where
  records :=
    { slots := fun _ _ held => nomatch held
      lanes := fun l r held => by
        have lane : s.softResetAll.lane l = if l < Config.lanes then (s.lane l).softReset else .cleared :=
          Table.get_tabulate _ _ _ l
        rw [lane] at held
        split at held <;> cases held }
  lanes := Table.wf_tabulate _ _ _
  slots := rfl

/-- R52 to R60: a search that ends completes a record that adds up. -/
theorem State.SummedSearches.recordComplete {s : State} (h : s.SummedSearches) {l : Nat} (hl : l < 4) :
    (s.recordComplete l).Summed := by
  unfold State.recordComplete
  dsimp only
  split
  next searching =>
    split
    next q ctx request context =>
      have site := h.site l ctx hl searching context
      have searched : (s.withSearch l (s.search (s.lane l) ctx).1).Summed :=
        h.summed.setLane l (h.summed.records.lanes l)
      unfold State.completeSearch
      dsimp only
      split
      next ending =>
        rw [State.withSearch_foundRecord]
        exact searched.askSlot l (State.foundRecord_addsUp ((State.search_ended site (h.labels l)).rebuild site ending) _ q)
      · exact searched.askSlot l (recordWithoutRoute_addsUp _ _ _ _)
    · exact h.summed
  · exact h.summed

theorem State.powerOn_summed (s : State) (rate : BitVec 2) (bootld alarm : Bool) : (s.powerOn rate bootld alarm).Summed := by
  unfold State.powerOn State.bootLoad
  split <;> exact ⟨⟨fun _ _ held => (nomatch held), fun _ _ held => (nomatch held)⟩, rfl, rfl⟩

/-- Every command leaves records that add up. -/
theorem State.Summed.carried : Carried State.SummedSearches State.Summed where
  same _ h := h.summed
  linkBefore _ _ h :=
    { h with
      summed := h.summed.of_work rfl
      site := fun l ctx hl searching context => { h.site l ctx hl searching context with } }
  linkAfter _ _ h := h.of_work rfl
  powerOn s rate bootld alarm _ := s.powerOn_summed rate bootld alarm
  assertReset s rate bootld h := h.summed.of_work (s.assertReset_work rate bootld)
  softResetAll s _ := s.softResetAll_summed
  siteOpen _ h := h.summed.siteOpen
  siteClose s h := h.summed.of_work s.siteClose_work
  tableWrite s table first bytes h := h.summed.of_work (s.tableWrite_work table first bytes)
  siteLoad _ address h := h.summed.siteLoad address
  siteDump s address h := h.summed.of_work (s.siteDump_work address)
  drainEnd s h := h.summed.of_work s.drainEnd_work
  condition s target value h := h.summed.of_work (s.condition_work target value)
  turnNow s h := h.summed.of_work s.turnNow_work
  turnTimerExpiry s h := h.summed.of_work s.turnTimerExpiry_work
  applyStep s h := h.summed.of_work s.applyStep_work
  tick _ h := h.summed.of_work rfl
  minuteBoundary s h := h.summed.of_work s.minuteBoundary_work
  setClock s second day h := h.summed.of_work (s.setClock_work second day)
  route _ r h := h.summed.route r
  grant _ h := h.summed.grant
  cancel _ screen h := h.summed.cancel screen
  recordComplete _ _ hl h := h.recordComplete hl
  slotGrant _ h := h.summed.slotGrant
  holdExpiry _ n h := h.summed.holdExpiry n
  collect _ screen h := h.summed.collect screen
  sampleTimerExpiry s h := h.summed.of_work s.sampleTimerExpiry_work
  pollSent s h := h.summed.of_work s.pollSent_work
  judgeSample s sample h := h.summed.of_work (s.judgeSample_work sample)
  egressEnter _ h := h.summed.egressEnter
  egressResume _ h := h.summed.egressResume
  alarmPinChange _ h := h.summed.of_work rfl
  alarmAsserted _ h := h.summed.alarmAsserted
  alarmClear s h := h.summed.of_work s.alarmClear_work
  busyClear s h := h.summed.of_work s.busyClear_work
  flashTimeout s h := h.summed.of_work s.flashTimeout_work
  headerRead s bytes h := h.summed.of_work (s.headerRead_work bytes)
  recordRead s bytes h := h.summed.of_work (s.recordRead_work bytes)

end Sys2Proof.Machine
end

section
/-! SUPPORT. Validated tables in VALID and DRAINING, and requests that wait in VALID alone, each of an enabled screen (R15, R20,
R22, R88, R96, R97): what each command keeps of them. -/

namespace Sys2Proof.Machine

/-- The tables of VALID and DRAINING have passed; only VALID holds waiting requests, of enabled screens; and, under `Q`, the site
has `n` nodes. -/
structure State.Waits (Q : Prop) (n : Nat) (s : State) : Prop where
  tables : s.site.state = .valid ∨ s.site.state = .draining → s.site.firstFailure = none
  waiting : ∀ e ∈ s.dispatcher.queue, s.site.state = .valid ∧ e.request.screen < 64 ∧
    (s.screenRecord e.request.screen).enabled = true
  count : Q → s.site.header.nodeCount = n

/-- What `State.Waits` rests on before a command: `Q` in VALID and DRAINING alone, and an image read in LOADING. -/
structure State.WaitsGuarded (Q : Prop) (n : Nat) (s : State) : Prop extends s.Waits Q n where
  site : Q → s.site.state = .valid ∨ s.site.state = .draining
  reading : s.transfer.state = .readHeader ∨ s.transfer.state = .readTables → s.site.state = .loading

section

variable {Q R : Prop} {n : Nat} {s t : State}

theorem State.Waits.mono (h : s.Waits Q n) (fewer : R → Q) : s.Waits R n := { h with count := fun r => h.count (fewer r) }

theorem State.drops_queue (s : State) (reason : DropReason) (requests : List Request) :
    (requests.foldl (State.drop reason) s).dispatcher.queue = s.dispatcher.queue :=
  List.foldlRecOn (motive := fun t : State => t.dispatcher.queue = s.dispatcher.queue) _ _ rfl fun _ same _ _ => same

theorem State.drops_site (s : State) (reason : DropReason) (requests : List Request) :
    (requests.foldl (State.drop reason) s).site = s.site :=
  List.foldlRecOn (motive := fun t : State => t.site = s.site) _ _ rfl fun _ same _ _ => same

/-- Validation reads the header and the tables. -/
theorem SiteStore.firstFailure_of_tables (site : SiteStore) (state : SiteState) (generation : Word16)
    (drain : Option Drain) :
    ({ site with state := state, generation := generation, drain := drain } : SiteStore).firstFailure = site.firstFailure :=
  rfl

theorem waits_foldl {α : Type} {f : State → α → State} (each : ∀ s x, s.Waits Q n → (f s x).Waits Q n) (l : List α)
    {s : State} (h : s.Waits Q n) : (l.foldl f s).Waits Q n := by
  induction l generalizing s with
  | nil => exact h
  | cons x rest ih => exact ih (each s x h)

section

variable (h : s.Waits Q n)
include h

/-! ### What touches neither the tables nor the queue -/

theorem State.Waits.of_view (site : t.site = s.site) (queue : t.dispatcher.queue = s.dispatcher.queue) : t.Waits Q n where
  tables := by rw [site]; exact h.tables
  waiting := by
    unfold State.screenRecord
    rw [site, queue]
    exact h.waiting
  count := by rw [site]; exact h.count

theorem State.Waits.offersOnly (offered : s.OffersOnly t) : t.Waits Q n := by
  obtain ⟨_, _, _, _, _, rfl⟩ := offered
  exact h.of_view rfl rfl

theorem State.Waits.offer (notice : Notice) : (s.offer notice).Waits Q n := h.of_view rfl rfl

theorem State.Waits.setScreen (i : Nat) (v : ScreenStatus) : (s.setScreen i v).Waits Q n := h.of_view rfl rfl

theorem State.Waits.setLane (l : Nat) (v : Lane) : (s.setLane l v).Waits Q n := h.of_view rfl rfl

theorem State.Waits.freeLane (l : Nat) : (s.freeLane l).Waits Q n := h.of_view rfl rfl

theorem State.Waits.setHolders (holders : List Nat) : (s.setHolders holders).Waits Q n := h.of_view rfl rfl

theorem State.Waits.setTransfer (t : TransferUnit) : (s.setTransfer t).Waits Q n := h.of_view rfl rfl

theorem State.Waits.drop (reason : DropReason) (r : Request) : (s.drop reason r).Waits Q n := h.of_view rfl rfl

theorem State.Waits.withdraw (l : Nat) : (s.withdraw l).Waits Q n := h.of_view rfl rfl

theorem State.Waits.setChannel (c : Nat) (v : Channel) : (s.setChannel c v).Waits Q n := h.of_view rfl rfl

theorem State.Waits.applyTurn (cause : TurnCause) : (s.applyTurn cause).Waits Q n := by
  obtain ⟨_, _, _, _, _, _, _, _, eq⟩ := s.applyTurn_frame cause
  rw [eq]
  exact h.of_view rfl rfl

theorem State.Waits.beginTurn (cause : TurnCause) : (s.beginTurn cause).Waits Q n := by
  unfold State.beginTurn
  split
  · exact h.of_view rfl rfl
  · exact h.applyTurn cause

theorem State.Waits.askTurn (cause : TurnCause) : (s.askTurn cause).Waits Q n := by
  unfold State.askTurn
  split
  · exact h.beginTurn cause
  · exact h

theorem State.Waits.turnNow : s.turnNow.state.Waits Q n := by
  unfold State.turnNow
  split
  · exact h
  · split
    · exact h
    · split
      · exact h.beginTurn .request
      · exact h

theorem State.Waits.turnTimerExpiry : s.turnTimerExpiry.Waits Q n := by
  unfold State.turnTimerExpiry
  split
  · exact h
  next length _ =>
    have started : ({ s with conditions :=
      { s.conditions with timer := some s.link.parameters.turnPeriod } } : State).Waits Q n := h.of_view rfl rfl
    exact started.askTurn .timer

theorem State.Waits.applyStep : s.applyStep.Waits Q n := by
  unfold State.applyStep
  split
  · split
    · exact h
    · exact h.applyTurn _
  · exact h

theorem State.Waits.minuteBoundary : s.minuteBoundary.Waits Q n := by
  unfold State.minuteBoundary
  split
  · have passed : ({ s with schedule := { s.schedule with boundaryDue := false } } : State).Waits Q n := h.of_view rfl rfl
    dsimp only
    split
    · exact passed.offersOnly (State.offerEntries_offersOnly _ _)
    · exact passed
  · exact h

theorem State.Waits.setClock (second day : Nat) : (s.setClock second day).state.Waits Q n := by
  unfold State.setClock
  split
  · exact h
  · have written : (s.writeClock second day).Waits Q n := h.of_view rfl rfl
    unfold accept
    dsimp only
    split
    · exact (written.offersOnly (State.catchUp_offersOnly _)).askTurn .schedule
    · exact written

theorem State.Waits.condition (target : Option Target) (value : Nat) : (s.condition target value).state.Waits Q n := by
  unfold State.condition
  split
  · exact h
  · split
    · exact h
    · split
      · exact h
      · split
        · exact h
        · split
          · exact h
          · exact h.of_view rfl rfl

theorem State.Waits.siteDump (address : Nat) : (s.siteDump address).state.Waits Q n := by
  unfold State.siteDump
  split
  · exact h
  · split
    · exact h
    · split
      · exact h
      · split
        · exact h
        · exact h.setTransfer _

theorem State.Waits.programNext (offset : Nat) : (s.programNext offset).Waits Q n := by
  unfold State.programNext
  split <;> exact h.setTransfer _

theorem State.Waits.endTransfer (t : TransferUnit) (operation : Operation) (outcome : TransferOutcome)
    (generation : Option Word16) : (s.endTransfer t operation outcome generation).Waits Q n := h.of_view rfl rfl

theorem State.Waits.busyClear : s.busyClear.Waits Q n := by
  unfold State.busyClear State.eraseNext
  split
  · split
    · exact h.setTransfer _
    · exact h.setTransfer _
    · exact h
  · split
    · exact h.setTransfer _
    · exact h.programNext 0
  · split
    · exact h.endTransfer _ _ _ _
    · exact h.programNext _
  · exact h
  · exact h
  · exact h
  · exact h

theorem State.Waits.processCycle (samples : List (Nat × Option Nat)) : (s.processCycle samples).Waits Q n :=
  waits_foldl (fun _ sample h => waits_foldl (fun _ notice h => h.offer notice) _ (h.setChannel sample.1 _)) _ h

theorem State.Waits.sampleTimerExpiry : s.sampleTimerExpiry.Waits Q n := by
  unfold State.sampleTimerExpiry
  split
  · exact h
  · dsimp only
    split <;> exact h.of_view rfl rfl

theorem State.Waits.pollSent : s.pollSent.Waits Q n := by
  unfold State.pollSent
  split
  · split
    · exact h.of_view rfl rfl
    · exact h
  · exact h

theorem State.Waits.judgeSample (sample : PollCycle → Option Nat) : (s.judgeSample sample).Waits Q n := by
  unfold State.judgeSample
  split
  · exact h
  · split
    · dsimp only
      split
      · exact h.of_view rfl rfl
      · have ended : (s.setCycle none).Waits Q n := h.of_view rfl rfl
        exact ended.processCycle _
    · exact h

theorem State.Waits.alarmClear : s.alarmClear.Waits Q n := by
  unfold State.alarmClear
  split
  · dsimp only
    split <;> exact h.of_view rfl rfl
  · exact h

theorem State.Waits.assertReset (rate : BitVec 2) (bootld : Bool) : (s.assertReset rate bootld).Waits Q n := by
  unfold State.assertReset State.abortTransfer
  split <;> exact h.of_view rfl rfl

/-! ### Lanes and slots -/

theorem State.Waits.askSlot (l : Nat) (r : RouteRecord) : (s.askSlot l r).Waits Q n := by
  unfold State.askSlot
  split <;> exact h.of_view rfl rfl

theorem State.Waits.grantSlot (m : Nat) : (s.grantSlot m).Waits Q n := by
  unfold State.grantSlot
  split
  · exact h
  · split
    · exact h
    · exact h.of_view rfl rfl

theorem State.Waits.freeSlot (m screen : Nat) : (s.freeSlot m screen).Waits Q n := by
  have freed : ((s.setSlot m none).setScreen screen .idle).Waits Q n := h.of_view rfl rfl
  exact freed.grantSlot m

theorem State.Waits.slotGrant : s.slotGrant.Waits Q n := by
  unfold State.slotGrant
  split
  · exact h.grantSlot _
  · exact h

theorem State.Waits.holdExpiry (m : Nat) : (s.holdExpiry m).Waits Q n := by
  unfold State.holdExpiry
  split
  · exact h
  · exact (h.offer _).freeSlot m _

theorem State.Waits.collect (screen : Nat) : (s.collect screen).state.Waits Q n := by
  unfold State.collect
  split
  · exact h
  · split
    · split
      · exact h.freeSlot _ screen
      · exact h
    · exact h

theorem State.Waits.recordComplete (l : Nat) : (s.recordComplete l).Waits Q n := by
  unfold State.recordComplete State.completeSearch
  dsimp only
  split
  · split
    · have searched (f : Frontier) : (s.withSearch l f).Waits Q n := h.of_view rfl rfl
      split <;> exact (searched _).askSlot l _
    · exact h
  · exact h

/-! ### The queue (R88 to R97) -/

/-- Fewer requests wait, of the same screens. -/
theorem State.Waits.setQueue {queue : List QueueEntry}
    (fewer : ∀ e ∈ queue, ∃ x ∈ s.dispatcher.queue, x.request.screen = e.request.screen) : (s.setQueue queue).Waits Q n :=
  { h with
    waiting := fun e he => by
      obtain ⟨x, hx, same⟩ := fewer e he
      exact same ▸ h.waiting x hx }

/-- R97: outside VALID no request waits. -/
theorem State.Waits.queue_empty (closed : s.site.state ≠ .valid) : s.dispatcher.queue = [] :=
  List.eq_nil_iff_forall_not_mem.mpr fun e he => closed (h.waiting e he).1

theorem State.Waits.cancel (screen : Nat) : (s.cancel screen).state.Waits Q n := by
  unfold State.cancel
  split
  · exact h
  · split
    · exact h
    · exact (h.setQueue fun e he => ⟨e, List.mem_of_mem_filter he, rfl⟩).setScreen screen .idle
    · exact h.of_view rfl rfl
    · exact h.freeSlot _ screen

/-- R88: an accepted request waits in VALID at an enabled screen. -/
theorem State.Waits.route (r : Request) : (s.route r).state.Waits Q n := by
  unfold State.route
  split
  · exact h
  next passes =>
    have checks : s.site.state = .valid ∧ s.badScreen r.screen = false := by
      unfold State.routeRefusal at passes
      split at passes
      · cases passes
      next valid =>
        split at passes
        · cases passes
        next good => exact ⟨not_not.mp valid, by simpa using good⟩
    obtain ⟨valid, good⟩ := checks
    have enabled : r.screen < 64 ∧ (s.screenRecord r.screen).enabled = true := by
      simpa [State.badScreen, Config.screens] using good
    exact { h with
      waiting := fun e he => by
        rcases List.mem_append.mp he with before | new
        · exact h.waiting e before
        · obtain rfl := List.mem_singleton.mp new
          exact ⟨valid, enabled⟩ }

theorem State.Waits.grant : s.grant.Waits Q n := by
  unfold State.grant State.grantEntry
  split
  · split
    · split
      · exact h
      next l place _ _ _ e _ =>
        dsimp only
        have taken := (h.setQueue (queue := (s.dispatcher.queue.take place).map (s.passed (s.priorityOf e)) ++
            s.dispatcher.queue.drop (place + 1)) fun x hx => by
          rcases List.mem_append.mp hx with ahead | behind
          · obtain ⟨y, hy, rfl⟩ := List.mem_map.mp ahead
            exact ⟨y, List.mem_of_mem_take hy, (State.passed_screen _ y).symm⟩
          · exact ⟨x, List.mem_of_mem_drop behind, rfl⟩).setScreen e.request.screen (.active l)
        unfold State.startSearch
        dsimp only
        split
        · exact (taken.setLane l _).askSlot l _
        · split
          · exact (taken.setLane l _).askSlot l _
          · exact taken.setLane l _
    · exact h
  · exact h

theorem State.Waits.drops (reason : DropReason) (requests : List Request) :
    (requests.foldl (State.drop reason) s).Waits Q n := waits_foldl (fun _ r h => h.drop reason r) requests h

theorem State.Waits.dropQueue : s.dropQueue.Waits Q n := (h.drops .site _).setQueue nofun

theorem State.Waits.trimQueue : s.trimQueue.Waits Q n :=
  (h.drops .mode _).setQueue fun e he => by
    rw [State.drops_queue]
    exact ⟨e, List.mem_of_mem_take he, rfl⟩

/-- R96: requests that pass their check again join the queue of a VALID site. -/
theorem State.Waits.requeue (valid : s.site.state = .valid) {requests : List Request}
    (fresh : ∀ r ∈ requests, s.badScreen r.screen = false) : (s.requeue requests).Waits Q n := by
  have queued (requests : List Request) : ∀ u : State, u.site = s.site → u.Waits Q n →
      let t := requests.foldl (fun u r => u.setScreen r.screen .queued) u
      t.site = s.site ∧ t.Waits Q n := by
    induction requests with
    | nil => exact fun u same h => ⟨same, h⟩
    | cons r rest ih => exact fun u same h => ih _ same (h.setScreen r.screen .queued)
  obtain ⟨site, screens⟩ := queued requests s rfl h
  unfold State.requeue
  dsimp only
  exact { screens with
    waiting := fun e he => by
      rcases List.mem_append.mp he with new | before
      · obtain ⟨r, hr, rfl⟩ := List.mem_map.mp new
        have enabled : r.screen < 64 ∧ (s.screenRecord r.screen).enabled = true := by
          simpa [State.badScreen, Config.screens] using fresh r hr
        refine ⟨(congrArg SiteStore.state site).trans valid, enabled.1, ?_⟩
        have records := congrArg (fun x : SiteStore => (Table.get Screen.cleared x.screens r.screen).enabled) site
        exact records.trans enabled.2
      · exact screens.waiting e before }

theorem State.Waits.takeBack (requests : List Request) : (s.takeBack requests).Waits Q n := by
  unfold State.takeBack
  split
  next valid =>
    have site := s.drops_site .site (requests.filter s.stale)
    refine ((h.drops .site _).requeue (by rw [site]; exact valid) fun r hr => ?_).trimQueue
    have good : s.badScreen r.screen = false ∧ s.badDestination r.destination = false := by
      simpa [State.stale] using List.of_mem_filter hr
    have same := congrArg (fun x : SiteStore => (Table.get Screen.cleared x.screens r.screen).enabled) site
    exact (congrArg (fun b => decide (Config.screens ≤ r.screen) || !b) same).trans good.1
  · exact h.drops .site requests

theorem State.Waits.handBack : s.handBack.Waits Q n :=
  (waits_foldl (fun _ l h => h.withdraw l) _ h).takeBack _

theorem State.Waits.markQueue (mark : Bool) : (s.markQueue mark).Waits Q n :=
  h.setQueue fun e he => by
    obtain ⟨x, hx, rfl⟩ := List.mem_map.mp he
    exact ⟨x, hx, rfl⟩

/-! ### The site state (R13 to R22) -/

/-- A site that has dropped its queue, or had none, may move where no tables must have passed. -/
theorem State.Waits.moveClosed (queue : s.dispatcher.queue = []) {site : SiteStore} (header : site.header = s.site.header)
    (closed : site.state ≠ .valid ∧ site.state ≠ .draining) (site_eq : t.site = site)
    (queue_eq : t.dispatcher.queue = s.dispatcher.queue) : t.Waits Q n where
  tables := by
    rw [site_eq]
    exact fun opened => absurd opened (not_or.mpr closed)
  waiting := by
    rw [queue_eq, queue]
    nofun
  count := by
    rw [site_eq, header]
    exact h.count

theorem State.Waits.proceed (queue : s.dispatcher.queue = []) (work : Drain) (cause : SiteCause) :
    (s.proceed work cause).Waits Q n := by
  cases work with
  | openSession => exact h.moveClosed queue (site := { s.site with state := .editing }) rfl ⟨nofun, nofun⟩ rfl rfl
  | load address => exact h.moveClosed queue (site := { s.site with state := .loading }) rfl ⟨nofun, nofun⟩ rfl rfl

theorem State.Waits.leaveValid (valid : s.site.state = .valid) (work : Drain) (cause : SiteCause) :
    (s.leaveValid work cause).Waits Q n := by
  have site : s.dropQueue.site = s.site := s.drops_site .site _
  have tables : s.dropQueue.site.firstFailure = none := by rw [site]; exact h.tables (.inl valid)
  unfold State.leaveValid
  dsimp only
  split
  · exact { h.dropQueue with
      tables := fun _ => (SiteStore.firstFailure_of_tables s.dropQueue.site .draining _ (some work)).trans tables
      waiting := nofun }
  · exact h.dropQueue.proceed rfl work cause

theorem State.Waits.siteOpen : s.siteOpen.state.Waits Q n := by
  unfold State.siteOpen
  split
  · exact h
  · split
    · exact h
    · split
      next site => exact h.proceed (h.queue_empty (by simp [site])) .openSession .openSession
      next site => exact h.proceed (h.queue_empty (by simp [site])) .openSession .openSession
      · exact h
      next site => exact h.leaveValid site .openSession .openSession
      · exact h
      · exact h

theorem State.Waits.siteLoad (address : Nat) : (s.siteLoad address).state.Waits Q n := by
  unfold State.siteLoad
  split
  · exact h
  · split
    · exact h
    · split
      · exact h
      · split
        next site => exact h.proceed (h.queue_empty (by simp [site])) (.load address) .load
        next site => exact h.proceed (h.queue_empty (by simp [site])) (.load address) .load
        next site => exact h.proceed (h.queue_empty (by simp [site])) (.load address) .load
        next site => exact h.leaveValid site (.load address) .load
        · exact h
        · exact h

theorem State.Waits.drainEnd : s.drainEnd.Waits Q n := by
  unfold State.drainEnd
  split
  next ends =>
    simp only [Bool.and_eq_true, decide_eq_true_eq] at ends
    have queue := h.queue_empty (by simp [ends.1])
    split
    · have cleared : (s.setDrain none).Waits Q n := { h with }
      exact cleared.proceed queue _ .drain
    · exact h
  · exact h

theorem State.Waits.failLoad (queue : s.dispatcher.queue = []) (outcome : TransferOutcome) :
    (s.failLoad outcome).Waits Q n :=
  h.moveClosed queue (site := { s.site with state := .invalid }) rfl ⟨nofun, nofun⟩ rfl rfl

/-- R13, R22: the tables of an entry to VALID have passed. -/
theorem State.Waits.enterValid (closed : s.site.state ≠ .valid) (passes : s.site.firstFailure = none) (cause : SiteCause) :
    (s.enterValid cause).Waits Q n := by
  have base : (s.entryBase cause).Waits Q n :=
    { tables := fun _ => passes
      waiting := by
        have queue : (s.entryBase cause).dispatcher.queue = [] := h.queue_empty closed
        rw [queue]
        nofun
      count := h.count }
  have entered := (base.offersOnly (s.entryCaughtUp_offersOnly cause)).applyTurn .site
  exact entered.of_view rfl rfl

theorem State.Waits.siteClose : s.siteClose.state.Waits Q n := by
  unfold State.siteClose
  split
  · exact h
  · split
    next opened =>
      have closed : s.site.state ≠ .valid := by intro site; simp [site] at opened
      split
      next passes => exact h.enterValid closed passes .close
      · exact h.moveClosed (h.queue_empty closed) (site := { s.site with state := .invalid }) rfl ⟨nofun, nofun⟩ rfl rfl
    · exact h

theorem State.Waits.finishTables (closed : s.site.state ≠ .valid) : s.finishTables.Waits Q n := by
  unfold State.finishTables State.validateLoad
  dsimp only
  split
  · split
    · exact h.failLoad (h.queue_empty closed) _
    next passes => exact (h.enterValid closed passes .load).endTransfer _ _ _ _
  · exact h.failLoad (h.queue_empty closed) _

/-! ### Egress Control (R152, R155) -/

theorem State.Waits.abandonDrain : s.abandonDrain.Waits Q n := by
  unfold State.abandonDrain
  split
  next draining =>
    have queue := h.queue_empty (by simp [draining])
    exact {
      tables := fun _ => (SiteStore.firstFailure_of_tables s.site .valid _ none).trans (h.tables (.inr draining))
      waiting := fun e he => by
        have before : e ∈ s.dispatcher.queue := he
        rw [queue] at before
        cases before
      count := h.count }
  · exact h

theorem State.Waits.enterEgress (cause : EntryCause) : (s.enterEgress cause).Waits Q n := by
  have entered : (s.setEgress { s.egress with mode := .egress, cause := some cause }).Waits Q n := h.of_view rfl rfl
  exact (entered.abandonDrain.markQueue true).handBack.offer _

theorem State.Waits.egressEnter : s.egressEnter.state.Waits Q n := by
  unfold State.egressEnter
  split
  · exact h
  · exact h.enterEgress .drill

theorem State.Waits.egressResume : s.egressResume.state.Waits Q n := by
  unfold State.egressResume
  split
  · exact h
  · split
    · exact h
    · have resumed : (s.setEgress { s.egress with mode := .normal, cause := none }).Waits Q n := h.of_view rfl rfl
      exact (resumed.markQueue false).handBack.offer _

theorem State.Waits.alarmAsserted : s.alarmAsserted.Waits Q n := by
  have taken : (s.takeLevel true).Waits Q n := h.of_view rfl rfl
  unfold State.alarmAsserted
  split
  · dsimp only
    split
    · exact taken.enterEgress .alarm
    · exact taken.offer _
  · exact h

/-- R24: a drain that a soft reset ends leaves the tables that passed. -/
theorem State.Waits.softResetAll : s.softResetAll.Waits Q n where
  tables opened := by
    have passed : s.site.state = .valid ∨ s.site.state = .draining := by
      have state : s.softResetAll.site.state = s.site.softReset.state := rfl
      rw [state, SiteStore.softReset] at opened
      cases site : s.site.state <;> simp_all
    exact h.tables passed
  waiting := nofun
  count := h.count

end

/-! ### What writes the tables (R17, R160, R161) -/

/-- R97, R107: a site that is written has no request waiting and no search. -/
theorem State.Waits.written (h : s.Waits Q n) (closed : s.site.state ≠ .valid ∧ s.site.state ≠ .draining)
    (state : t.site.state = s.site.state) (queue : t.dispatcher.queue = s.dispatcher.queue) : t.Waits False n where
  tables := by
    rw [state]
    exact fun opened => absurd opened (not_or.mpr closed)
  waiting := by
    rw [queue, h.queue_empty closed.1]
    nofun
  count := False.elim

theorem State.WaitsGuarded.quiet (h : s.WaitsGuarded Q n) (closed : s.site.state ≠ .valid ∧ s.site.state ≠ .draining) :
    ¬ Q := fun some => not_or.mpr closed (h.site some)

theorem State.WaitsGuarded.tableWrite (h : s.WaitsGuarded Q n) (table first : Nat) (bytes : List Byte) :
    (s.tableWrite table first bytes).state.Waits Q n := by
  have same := h.toWaits
  unfold State.tableWrite
  split
  · exact same
  next opened =>
    have closed : s.site.state ≠ .valid ∧ s.site.state ≠ .draining := by
      constructor <;> intro other <;> simp [other] at opened
    split
    · exact same
    · dsimp only
      split
      · exact same
      · split
        · exact same
        next records _ =>
          exact (same.written (t := { s with site := s.site.setRecords first records }) closed
            (SiteStore.setRecords_state _ _ _) rfl).mono (h.quiet closed)

theorem State.WaitsGuarded.headerRead (h : s.WaitsGuarded Q n) (bytes : List Byte) : (s.headerRead bytes).Waits Q n := by
  unfold State.headerRead
  split
  next reads =>
    simp only [Bool.and_eq_true, decide_eq_true_eq] at reads
    have loading := h.reading (.inl reads.1)
    have closed : s.site.state ≠ .valid ∧ s.site.state ≠ .draining := by simp [loading]
    have queue := h.queue_empty closed.1
    split
    · unfold State.noteLength
      split
      · refine State.Waits.failLoad (h.toWaits.setTransfer _) ?_ _
        exact queue
      · exact h.toWaits.failLoad queue _
    · exact (h.toWaits.written (t := s.acceptHeader bytes) closed rfl rfl).mono (h.quiet closed)
  · exact h.toWaits

theorem State.WaitsGuarded.recordRead (h : s.WaitsGuarded Q n) (bytes : List Byte) : (s.recordRead bytes).Waits Q n := by
  unfold State.recordRead State.readRecord
  split
  next i reads _ =>
    have loading := h.reading (.inr reads)
    have closed : s.site.state ≠ .valid ∧ s.site.state ≠ .draining := by simp [loading]
    split
    · dsimp only
      split
      · refine State.Waits.failLoad (h.toWaits.setTransfer _) ?_ _
        exact h.queue_empty closed.1
      next record _ =>
        have state := s.site.setRecord_state i record
        have written := (h.toWaits.setTransfer (s.transfer.counted bytes)).written
          (t := { s.setTransfer (s.transfer.counted bytes) with site := s.site.setRecord i record }) closed state rfl
        have quiet : Q → False := h.quiet closed
        split
        · exact (written.setTransfer _).mono quiet
        · exact ((written.setTransfer _).finishTables (ne_of_eq_of_ne state closed.1)).mono quiet
    · exact h.toWaits
  · exact h.toWaits

theorem State.WaitsGuarded.flashTimeout (h : s.WaitsGuarded Q n)
    (loads : s.transfer.operation = some .load → s.site.state = .loading) : s.flashTimeout.Waits Q n := by
  unfold State.flashTimeout
  dsimp only
  split
  · split
    next load => exact h.toWaits.failLoad (h.queue_empty (by simp [loads load])) _
    · exact h.toWaits.endTransfer _ _ _ _
    · exact h.toWaits
  · exact h.toWaits

theorem State.powerOn_waits (s : State) (rate : BitVec 2) (bootld alarm : Bool) (n : Nat) :
    (s.powerOn rate bootld alarm).Waits False n := by
  unfold State.powerOn State.bootLoad
  split <;> exact ⟨nofun, nofun, nofun⟩

end

/-- What holds before a command: the guard, and loads in LOADING alone. -/
theorem State.Waits.carried (Q : Prop) (n : Nat) :
    Carried (fun u => u.WaitsGuarded Q n ∧ (u.transfer.operation = some .load → u.site.state = .loading))
      (fun t => t.Waits (Q ∧ t.Searching) n) := by
  have after {t : State} (h : t.Waits Q n) : t.Waits (Q ∧ t.Searching) n := h.mono And.left
  exact {
    same := fun _ h => after h.1.toWaits
    linkBefore := fun _ _ h => ⟨{ h.1 with }, h.2⟩
    linkAfter := fun _ _ h => h.of_view rfl rfl
    powerOn := fun s rate bootld alarm _ =>
      (s.powerOn_waits rate bootld alarm n).mono fun some => s.powerOn_not_searching rate bootld alarm some.2
    assertReset := fun _ rate bootld h => after (h.1.toWaits.assertReset rate bootld)
    softResetAll := fun _ h => after h.1.toWaits.softResetAll
    siteOpen := fun _ h => after h.1.toWaits.siteOpen
    siteClose := fun _ h => after h.1.toWaits.siteClose
    tableWrite := fun _ table first bytes h => after (h.1.tableWrite table first bytes)
    siteLoad := fun _ address h => after (h.1.toWaits.siteLoad address)
    siteDump := fun _ address h => after (h.1.toWaits.siteDump address)
    drainEnd := fun _ h => after h.1.toWaits.drainEnd
    condition := fun _ target value h => after (h.1.toWaits.condition target value)
    turnNow := fun _ h => after h.1.toWaits.turnNow
    turnTimerExpiry := fun _ h => after h.1.toWaits.turnTimerExpiry
    applyStep := fun _ h => after h.1.toWaits.applyStep
    tick := fun _ h => after (h.1.toWaits.of_view rfl rfl)
    minuteBoundary := fun _ h => after h.1.toWaits.minuteBoundary
    setClock := fun _ second day h => after (h.1.toWaits.setClock second day)
    route := fun _ r h => after (h.1.toWaits.route r)
    grant := fun _ h => after h.1.toWaits.grant
    cancel := fun _ screen h => after (h.1.toWaits.cancel screen)
    recordComplete := fun _ l _ h => after (h.1.toWaits.recordComplete l)
    slotGrant := fun _ h => after h.1.toWaits.slotGrant
    holdExpiry := fun _ m h => after (h.1.toWaits.holdExpiry m)
    collect := fun _ screen h => after (h.1.toWaits.collect screen)
    sampleTimerExpiry := fun _ h => after h.1.toWaits.sampleTimerExpiry
    pollSent := fun _ h => after h.1.toWaits.pollSent
    judgeSample := fun _ sample h => after (h.1.toWaits.judgeSample sample)
    egressEnter := fun _ h => after h.1.toWaits.egressEnter
    egressResume := fun _ h => after h.1.toWaits.egressResume
    alarmPinChange := fun _ h => after (h.1.toWaits.of_view rfl rfl)
    alarmAsserted := fun _ h => after h.1.toWaits.alarmAsserted
    alarmClear := fun _ h => after h.1.toWaits.alarmClear
    busyClear := fun _ h => after h.1.toWaits.busyClear
    flashTimeout := fun _ h => after (h.1.flashTimeout h.2)
    headerRead := fun _ bytes h => after (h.1.headerRead bytes)
    recordRead := fun _ bytes h => after (h.1.recordRead bytes) }

end Sys2Proof.Machine
end

section
/-! SUPPORT. Where searches begin (R43, R88, S1): at the node of an enabled screen of the validated site. -/

namespace Sys2Proof.Machine

/-- Every search begins at one of `n` nodes. -/
def State.OriginsBelow (n : Nat) (s : State) : Prop :=
  ∀ l ctx, l < 4 → (s.lane l).state = .searching → (s.lane l).context = some ctx → ctx.origin < n

section

variable {s t : State} {n : Nat}

theorem State.KeepsSearches.origins (h : s.KeepsSearches t) (origins : s.OriginsBelow n) : t.OriginsBelow n := by
  intro l ctx hl searching context
  obtain ⟨before, same⟩ := h.lanes l searching
  exact origins l ctx hl before (same ▸ context)

/-- S1: an enabled screen of a validated site stands at a node of the site. -/
theorem State.screen_node_lt (validated : s.site.firstFailure = none) {i : Nat} (number : i < 64)
    (enabled : (s.screenRecord i).enabled = true) : (s.screenRecord i).node < s.site.header.nodeCount := by
  have check : checkS1 s.site i = true :=
    SiteStore.check_of_validated validated (t := .screens) (check := (.S1, checkS1)) (by decide) number
      (by simp [TableId.checks])
  have passes : (s.screenRecord i).enabled = false ∨ (s.screenRecord i).node < s.site.header.nodeCount := by
    simpa [checkS1, State.screenRecord] using check
  exact passes.resolve_left (by simp [enabled])

/-- R43: a lane's search begins at its screen's node. -/
theorem State.OriginsBelow.startSearch (origins : s.OriginsBelow n) (h : Table.wf .cleared s.lanes = true) (l : Nat)
    {r : Request} (origin : (s.screenRecord r.screen).node < n) : (s.startSearch l r).OriginsBelow n := by
  have begun : (s.setLane l (s.searchingLane l r)).OriginsBelow n := by
    intro m ctx hm searching context
    by_cases same : m = l
    · subst same
      have lane : (s.setLane m (s.searchingLane m r)).lane m = s.searchingLane m r := Table.get_set_self _ h _ _
      rw [lane] at context
      obtain rfl : s.contextOf r = ctx := Option.some.inj context
      exact origin
    · have lane : (s.setLane l (s.searchingLane l r)).lane m = s.lane m := Table.get_set_of_ne _ _ _ same
      rw [lane] at searching context
      exact origins m ctx hm searching context
  have asked (record : RouteRecord) : ((s.setLane l (s.searchingLane l r)).askSlot l record).OriginsBelow n :=
    (State.askSlot_keepsSearches (Table.wf_set _ h _ _) l record).origins begun
  unfold State.startSearch
  dsimp only
  split
  · exact asked _
  · split
    · exact asked _
    · exact begun

/-- R92: a grant begins a search for a request that waited. -/
theorem State.OriginsBelow.grant (origins : s.OriginsBelow n) (h : Table.wf .cleared s.lanes = true)
    (waiting : ∀ e ∈ s.dispatcher.queue, (s.screenRecord e.request.screen).node < n) : s.grant.OriginsBelow n := by
  unfold State.grant State.grantEntry
  split
  · split
    · split
      · exact origins
      next l place _ _ _ e entry =>
        dsimp only
        refine State.OriginsBelow.startSearch ?_ ?_ l (waiting e (List.mem_of_getElem? entry))
        · exact origins
        · exact h
    · exact origins
  · exact origins

theorem State.SiteValidated.waits (h : s.SiteValidated) : s.Waits s.Searching s.site.header.nodeCount :=
  { h with tables := fun opened => (h.tables opened).1, count := fun _ => rfl }

theorem State.SiteValidated.origin_of_waiting (h : s.SiteValidated) {e : QueueEntry} (he : e ∈ s.dispatcher.queue) :
    (s.screenRecord e.request.screen).node < s.site.header.nodeCount := by
  obtain ⟨valid, number, enabled⟩ := h.waiting e he
  exact State.screen_node_lt (h.tables (.inl valid)).1 number enabled

/-- GRANT leaves the site as it is. -/
theorem State.grant_site (s : State) : s.grant.site = s.site := by
  unfold State.grant State.grantEntry
  split
  · split
    · split
      · rfl
      · dsimp only
        rw [State.startSearch_frame]
        rfl
    · rfl
  · rfl

/-- Every command leaves the tables, the waiting requests and the origins of the searches as `State.SiteValidated` has them. -/
theorem State.SiteValidated.exec (h : s.SiteValidated) (canonical : s.Canonical) (ranges : s.RecordsInRange)
    (consistent : s.Consistent) (c : Instr) : ∃ t, exec c s = .next t ∧ t.SiteValidated := by
  have guarded : s.WaitsGuarded s.Searching s.site.header.nodeCount :=
    { h.waits with
      site := consistent.searching
      reading := fun reads => consistent.loads (consistent.reading (reads.imp_right .inl)) }
  obtain ⟨t, next, waits⟩ := (State.Waits.carried s.Searching s.site.header.nodeCount).exec ⟨guarded, consistent.loads⟩ c
  obtain ⟨t', next', tabled⟩ := State.Tabled.carried.exec (State.tabled_iff.mpr ⟨canonical, ranges⟩) c
  obtain rfl : t = t' := by rw [next] at next'; exact Host.Outcome.next.inj next'
  refine ⟨t, next, fun opened => ⟨waits.tables opened, tabled.site.ranges .header 0⟩, waits.waiting, ?_⟩
  by_cases grants : c = .grant
  · subst grants
    have run : t = s.event State.grant := (Host.Outcome.next.inj next).symm
    have origins : t.OriginsBelow s.site.header.nodeCount ∧ t.site = s.site := by
      rw [run, State.event]
      split
      · exact ⟨State.OriginsBelow.grant h.origins canonical.lanes fun e he => h.origin_of_waiting he, s.grant_site⟩
      · exact ⟨h.origins, rfl⟩
    rw [origins.2]
    exact origins.1
  · obtain ⟨t', next', undisturbed⟩ := exec_undisturbed (consistent.searchesGuarded canonical) grants
    obtain rfl : t = t' := by rw [next] at next'; exact Host.Outcome.next.inj next'
    intro l ctx hl searching context
    rcases undisturbed with keeps | none
    · have searches : t.Searching := ⟨l, hl, searching⟩
      have before : s.Searching := ⟨l, hl, (keeps.lanes l searching).1⟩
      rw [waits.count ⟨before, searches⟩]
      exact keeps.origins h.origins l ctx hl searching context
    · exact absurd ⟨l, hl, searching⟩ none

/-- What `State.SiteValidated` gives a search. -/
theorem State.SiteValidated.searchesSite (h : s.SiteValidated) (consistent : s.Consistent) {l : Nat} {ctx : SearchContext}
    (hl : l < 4) (searching : (s.lane l).state = .searching) (context : (s.lane l).context = some ctx) :
    s.SearchesSite ctx := by
  obtain ⟨validated, counts⟩ := h.tables (consistent.searching ⟨l, hl, searching⟩)
  exact ⟨validated, counts, h.origins l ctx hl searching context⟩

end

end Sys2Proof.Machine
end

section

open Sys2Proof Sys2Proof.Machine

/-- Settles O45: a search of a validated site completes a record that adds up (`State.foundRecord_addsUp`), and records are
only moved (`State.Summed.carried`); only an entry to VALID needs tables that pass, only ROUTE and a hand-back queue a
request, after its check (`State.Waits.carried`), and only GRANT begins a search, at the node of such a request's screen. -/
theorem recordsAddUpIsKept : Obligations.RecordsAddUpIsKept := by
  refine ⟨fun s t sums canonical site next => ?_, fun s t canonical ranges consistent validated next => ?_,
    fun s l ctx consistent validated hl searching context => validated.searchesSite consistent hl searching context⟩
  · have summed : s.SummedSearches := ⟨⟨sums, canonical.lanes, canonical.slots⟩, canonical.labels, site⟩
    refine (State.Summed.carried.step summed (fun u queue h => ?_) next).records
    exact { h with
      summed := h.summed.of_work rfl
      site := fun l ctx hl searching context => { h.site l ctx hl searching context with } }
  · unfold step at next
    split at next
    · cases next
      exact validated
    next c rest _ =>
      have taken : ({ s with pending := rest } : State).SiteValidated := { validated with }
      obtain ⟨u, run, kept⟩ := taken.exec { canonical with } ranges { consistent with } c
      rw [run] at next
      cases next
      exact kept

end

section
/-! SUPPORT. The state after a power-on reset meets every invariant (R23, R65, R84, R99, R116, R137, R148, R157, R167, R178). -/

namespace Sys2Proof.Machine

/-- The invariants of the part. -/
structure State.MeetsInvariants (s : State) : Prop where
  canonical : s.Canonical
  ranges : s.RecordsInRange
  lists : s.ListsBounded
  link : s.link.Bounded
  parameters : s.link.parameters.InRange
  flow : s.flow.InRange
  counts : s.CountsFollowSettings
  consistent : s.Consistent
  outstanding : s.Outstanding
  current : s.SearchesCurrent
  validated : s.SiteValidated
  records : s.RecordsAddUp

theorem State.powerOn_meetsInvariants (s : State) (rate : BitVec 2) (bootld alarm : Bool) :
    (s.powerOn rate bootld alarm).MeetsInvariants := by
  have kept := s.powerOn_kept rate bootld alarm 8
  have idle := s.powerOn_not_searching rate bootld alarm
  have waits := s.powerOn_waits rate bootld alarm 0
  obtain ⟨canonical, ranges⟩ := State.tabled_iff.mp (s.powerOn_tabled rate bootld alarm)
  exact {
    canonical := canonical
    ranges := ranges
    lists := kept.lists
    link := kept.link.bounded
    parameters := kept.link.parameters
    flow := kept.flow.range
    counts := kept.counts
    consistent := (s.powerOn_aligned rate bootld alarm).consistent idle
    outstanding := (s.powerOn_accounted rate bootld alarm).outstanding
    current := fun l _ hl searching => absurd ⟨l, hl, searching⟩ idle
    validated :=
      { tables := fun opened => ⟨waits.tables opened, ranges .header 0⟩
        waiting := waits.waiting
        origins := fun l _ hl searching => absurd ⟨l, hl, searching⟩ idle }
    records := (s.powerOn_summed rate bootld alarm).records }

/-- R23: `State.reset` is what a power-on reset with low levels leaves of it. -/
theorem State.reset_powerOn : State.reset.powerOn 0 false false = State.reset := rfl

theorem State.reset_meetsInvariants : State.reset.MeetsInvariants :=
  State.reset_powerOn ▸ State.reset.powerOn_meetsInvariants 0 false false

theorem State.MeetsInvariants.all {s : State} (h : s.MeetsInvariants) :
    s.Canonical ∧ s.RecordsInRange ∧ s.ListsBounded ∧ s.link.Bounded ∧ s.link.parameters.InRange ∧ s.flow.InRange ∧
      s.CountsFollowSettings ∧ s.Consistent ∧ s.Outstanding ∧ s.SearchesCurrent ∧ s.SiteValidated ∧ s.RecordsAddUp :=
  ⟨h.canonical, h.ranges, h.lists, h.link, h.parameters, h.flow, h.counts, h.consistent, h.outstanding, h.current,
    h.validated, h.records⟩

end Sys2Proof.Machine
end

section

open Sys2Proof Sys2Proof.Machine

/-- Settles O60: each invariant's lemma about a power-on reset; `State.reset` is one with low levels. -/
theorem resetMeetsTheInvariants : Obligations.ResetMeetsTheInvariants :=
  ⟨fun rate bootld alarm s => ⟨_, rfl, (s.powerOn_meetsInvariants rate bootld alarm).all⟩, State.reset_meetsInvariants.all⟩

end

section
/-! SUPPORT. The state after each reset, written out by block (R23, R24, R84, R99, R116, R137, R148, R157, R167, R178). -/

namespace Sys2Proof.Machine

/-- R23, R167: what differs from the cleared part after a power-on reset: the straps, the ALARM pin, and, with BOOTLD high, a
load from address 0. -/
theorem State.powerOn_eq (s : State) (rate : BitVec 2) (bootld alarm : Bool) : s.powerOn rate bootld alarm = { State.reset with
    pending := s.pending
    pins := { resetAsserted := false, rate := rate, bootld := bootld }
    site := { SiteStore.cleared with state := if bootld then .loading else .empty }
    transfer := { TransferUnit.cleared with
      state := if bootld then .readyWait else .idle
      operation := if bootld then some .load else none
      address := if bootld then some 0 else none
      sent := if bootld then [.readStatus] else [] }
    egress := .afterPowerOn alarm } := by
  cases bootld <;> rfl

theorem exec_softResetEffect {s : State} (running : s.Running) (taken : s.link.softReset = true) (replies : s.link.replies = []) :
    exec .softResetEffect s = .next s.softResetAll := by
  change Host.Outcome.next (s.event State.softResetEffect) = _
  rw [State.event_of_running running, State.softResetEffect, taken, replies]
  rfl

/-- R66: a lane is FREE after a soft reset, with its label table as it was. -/
theorem State.softResetAll_lane (s : State) {l : Nat} (hl : l < 4) : s.softResetAll.lane l = (s.lane l).softReset :=
  (Table.get_tabulate _ _ _ l).trans (if_pos hl)

/-- R24. -/
theorem SiteStore.softReset_eq (site : SiteStore) : site.softReset = { site with
    state := if site.state = .loading then .invalid else if site.state = .draining then .valid else site.state
    drain := none } := by
  unfold SiteStore.softReset
  cases site.state <;> rfl

/-- R165: a soft reset leaves the transfer unit IDLE. -/
theorem State.softResetAll_transfer (s : State) :
    s.softResetAll.transfer = if s.transfer.state = .idle then s.transfer else s.transfer.aborted := by
  unfold State.softResetAll
  dsimp only
  by_cases idle : s.transfer.state = .idle <;> simp [State.transferRuns, idle]

end Sys2Proof.Machine
end

section

open Sys2Proof Sys2Proof.Machine

/-- Settles O2: every block is read off `State.powerOn_eq`. -/
theorem powerOnResetClearsThePart : Obligations.PowerOnResetClearsThePart := by
  refine ⟨fun rate bootld alarm s => ⟨_, congrArg Host.Outcome.next (s.powerOn_eq rate bootld alarm), ?_⟩, fun _ => rfl, rfl⟩
  refine ⟨rfl, rfl, rfl, fun i => ⟨rfl, rfl, rfl, rfl, rfl, rfl, rfl, rfl, rfl, rfl, rfl⟩, rfl, rfl, rfl, rfl,
    fun i => ⟨rfl, rfl, rfl, rfl⟩, ?_⟩
  exact ⟨rfl, rfl, rfl, rfl, rfl, rfl, rfl, rfl, fun _ => rfl, rfl, rfl, fun _ => rfl, rfl, fun _ => rfl, fun _ => rfl, rfl,
    rfl, rfl, rfl⟩

/-- Settles O5: the row takes effect (`exec_softResetEffect`), and each block's values are those of its soft reset. -/
theorem softResetTakesEffect : Obligations.SoftResetTakesEffect := by
  intro s running taken replies
  have transfer := s.softResetAll_transfer
  refine ⟨_, exec_softResetEffect running taken replies, s.site.softReset_eq, fun idle => by rw [transfer, if_pos idle],
    fun runs => by rw [transfer, if_neg runs]; exact ⟨rfl, rfl⟩, by rw [transfer]; split <;> rfl, ?_⟩
  have timer {α : Type} (x : α) : (if decide (s.site.softReset.state = .valid) then some x else none) =
      if s.site.softReset.state = .valid then some x else none := by simp
  refine ⟨?_, ?_, rfl, fun _ => rfl, rfl, fun l hl => s.softResetAll_lane hl, fun _ => rfl, rfl, rfl, rfl, rfl⟩
  · exact congrArg (fun t => ({ s.conditions with turn := .idle, timer := t } : ConditionUnit)) (timer 2)
  · exact congrArg (fun t => ({ s.flow with cycle := none, timer := t } : FlowMonitor)) (timer 10)

end

section
/-! SUPPORT. Replies: of a report, of a refusal, and of a block that has offered notices (R168, R169, R175). -/

namespace Sys2Proof.Machine

/-- A block that leaves the part as it is leaves the reply alone. -/
theorem State.replied_of_same {s : State} {a : Answer} (same : a.state = s.hunting) (kind : RequestKind) :
    a.replied kind =
      s.answers (BitVec.ofNat 8 (0x80 + kind.code)) (le8 a.code.code ++ if a.code = .ok then a.data else []) := by
  obtain ⟨code, data, state⟩ := a
  obtain rfl : state = s.hunting := same
  rfl

/-- A block that has offered notices: the reply, and the receiver in HUNT. -/
theorem Answer.replied_of_offers {s : State} {a : Answer} {notices : List Notice}
    (link : a.state.link = s.link.toHunt.offerAll notices) (kind : RequestKind) :
    a.replied kind = { a.state with
      link := HostLink.answered (s.link.offerAll notices) (BitVec.ofNat 8 (0x80 + kind.code))
        (le8 a.code.code ++ if a.code = .ok then a.data else []) } := by
  unfold Answer.replied
  rw [link, HostLink.toHunt_offerAll]
  rfl

/-- A report that is taken changes the reply queue only. -/
theorem State.take_of_report {s : State} (h : s.Open) {kind : RequestKind} {payload : List Byte}
    (hl : kind.lengthAllowed payload = true) (ha : s.link.startPending = false ∨ kind.beforeAck = true)
    {block : State → Answer} (same : ∀ u, (block u).state = u) :
    ∃ data, (Host.Outcome.next (s.take kind payload block) : Host.Outcome State Fault Refusal) =
      .next (s.answers (BitVec.ofNat 8 (0x80 + kind.code)) data) :=
  ⟨_, congrArg Host.Outcome.next ((State.take_of_open h hl ha block).trans (State.replied_of_same (same _) kind))⟩

theorem RequestKind.beforeAck_of_report {kind : RequestKind} {k : HostLink}
    (h : k.startPending = false ∨ kind = .status ∨ kind = .getParam) : k.startPending = false ∨ kind.beforeAck = true :=
  h.imp_right fun report => by rcases report with rfl | rfl <;> rfl

/-- R18, R17 step 3: the checks of an index and a number against a table. -/
theorem outsideTable_iff (t : TableId) (first count : Nat) :
    outsideTable t first count = true ↔ t.capacity ≤ first ∨ t.capacity < first + count := by
  unfold outsideTable
  simp only [Bool.or_eq_true, decide_eq_true_eq]
  omega

theorem TableId.ofCode_eq_none {code : Nat} (h : 12 ≤ code) : TableId.ofCode code = none := by
  obtain ⟨k, rfl⟩ := Nat.exists_eq_add_of_le h
  rw [Nat.add_comm]
  rfl

/-! ### TABLE READ (R18) -/

section

variable {s : State} {table first count : Nat}

theorem State.tableRead_loading (h : s.site.state = .loading) : s.tableRead table first count = refuse s .wrongState :=
  if_pos h

theorem State.tableRead_badTarget (h : s.site.state ≠ .loading) (unknown : TableId.ofCode table = none) :
    s.tableRead table first count = refuse s .badTarget := by
  rw [State.tableRead, if_neg h, unknown]

theorem State.tableRead_badIndex (h : s.site.state ≠ .loading) {t : TableId} (known : TableId.ofCode table = some t)
    (outside : outsideTable t first count = true) : s.tableRead table first count = refuse s .badIndex := by
  rw [State.tableRead, if_neg h, known]
  exact if_pos outside

theorem State.tableRead_of_inside (h : s.site.state ≠ .loading) {t : TableId} (known : TableId.ofCode table = some t)
    (inside : ¬ outsideTable t first count = true) : s.tableRead table first count =
      if count = 0 ∨ 1024 < 1 + count * t.recordBytes then refuse s .badValue
      else { code := .ok, data := s.site.recordsBytes t first count, state := s } := by
  rw [State.tableRead, if_neg h, known]
  simp only [if_neg inside, Bool.or_eq_true, decide_eq_true_eq, Config.payloadBytes]

theorem exec_tableRead (h : s.Started) (ht : table < 256) (hf : first < 65536) (hc : count < 65536) :
    exec (.tableRead (le8 table ++ le16 first ++ le16 count)) s =
      .next ((s.hunting.tableRead table first count).replied .tableRead) := by
  have tableByte : byteAt (le8 table ++ le16 first ++ le16 count) 0 = table := byteAt_le8 ht _
  have firstWord : wordAt (le8 table ++ le16 first ++ le16 count) 1 = first := wordAt_le16 hf _
  have countWord : wordAt (le8 table ++ le16 first ++ le16 count) 3 = count := wordAt_le16 hc []
  change Host.Outcome.next (s.take _ _ _) = _
  rw [State.take_of_started h rfl, tableByte, firstWord, countWord]

end

/-! ### TABLE WRITE refused (R17) -/

/-- The pieces of a payload. -/
theorem getElem?_chunks (size count : Nat) (bytes : List Byte) (i : Nat) :
    (chunks size count bytes)[i]? = if i < count then some ((bytes.drop (i * size)).take size) else none := by
  induction count generalizing bytes i with
  | zero => rfl
  | succ count ih =>
    cases i with
    | zero => simp [chunks]
    | succ i =>
      rw [chunks, List.getElem?_cons_succ, ih, List.drop_drop, Nat.succ_mul, Nat.add_comm size]
      simp

/-- R17 step 4: one piece that stands for no record refuses them all. -/
theorem recordsOfBytes_eq_none {t : TableId} {count : Nat} {bytes : List Byte}
    (h : ∃ i, i < count ∧ Record.ofBytes t ((bytes.drop (i * t.recordBytes)).take t.recordBytes) = none) :
    recordsOfBytes t count bytes = none := by
  obtain ⟨i, hi, unread⟩ := h
  rw [Option.eq_none_iff_forall_ne_some]
  intro records read
  obtain ⟨length, each⟩ := List.forall₂_iff_get.mp (mapM_eq_some_iff.mp read)
  obtain ⟨inside, piece⟩ := List.getElem?_eq_some_iff.mp ((getElem?_chunks t.recordBytes count bytes i).trans (if_pos hi))
  have readPiece := each i inside (length ▸ inside)
  rw [List.get_eq_getElem, piece, unread] at readPiece
  cases readPiece

section

variable {s : State} {table first : Nat} {bytes : List Byte}

theorem State.tableWrite_closed (editing : s.site.state ≠ .editing) (invalid : s.site.state ≠ .invalid) :
    s.tableWrite table first bytes = refuse s .wrongState := by
  rw [State.tableWrite, if_pos]
  simp [editing, invalid]

theorem State.tableWrite_of_open (h : s.site.state = .editing ∨ s.site.state = .invalid) : s.tableWrite table first bytes =
    match TableId.ofCode table with
    | none => refuse s .badTarget
    | some t =>
      if outsideTable t first (bytes.length / t.recordBytes) then refuse s .badIndex
      else match recordsOfBytes t (bytes.length / t.recordBytes) bytes with
        | none => refuse s .badValue
        | some records => accept { s with site := s.site.setRecords first records } :=
  if_neg (by rcases h with h | h <;> simp [h])

theorem exec_tableWrite (h : s.Started) (ht : table < 256) (hf : first < 65536)
    (hl : RequestKind.tableWrite.lengthAllowed (le8 table ++ le16 first ++ bytes) = true) :
    exec (.tableWrite (le8 table ++ le16 first ++ bytes)) s =
      .next ((s.hunting.tableWrite table first bytes).replied .tableWrite) := by
  have tableByte : byteAt (le8 table ++ le16 first ++ bytes) 0 = table := byteAt_le8 ht _
  have firstWord : wordAt (le8 table ++ le16 first ++ bytes) 1 = first := wordAt_le16 hf _
  have rest : (le8 table ++ le16 first ++ bytes).drop 3 = bytes := rfl
  change Host.Outcome.next (s.take _ _ _) = _
  rw [State.take_of_started h hl, tableByte, firstWord, rest]

end

end Sys2Proof.Machine
end

section

open Sys2Proof Sys2Proof.Machine

/-- Settles O15: each of the six blocks answers with the state it was given (`State.take_of_report`). -/
theorem reportsChangeNothing : Obligations.ReportsChangeNothing := by
  intro c kind payload s request report length isOpen ack
  have acked := RequestKind.beforeAck_of_report ack
  cases c with
  | status p =>
    cases request
    exact State.take_of_report isOpen length acked fun _ => rfl
  | getParam p =>
    cases request
    exact State.take_of_report isOpen length acked fun u => u.getParam_state _
  | tableRead p =>
    cases request
    exact State.take_of_report isOpen length acked fun u => u.tableRead_state _ _ _
  | conditionRead p =>
    cases request
    exact State.take_of_report isOpen length acked fun u => u.conditionRead_state _
  | screenState p =>
    cases request
    exact State.take_of_report isOpen length acked fun u => u.screenStateReply_state _
  | flowRead p =>
    cases request
    exact State.take_of_report isOpen length acked fun u => u.flowRead_state _
  | _ => cases request <;> simp at report

/-- Settles O21: the checks of R18 in their order, and the records read. -/
theorem tableReadAnswersTheRecords : Obligations.TableReadAnswersTheRecords := by
  intro s table first count started ht hf hc
  dsimp only
  rw [exec_tableRead started ht hf hc]
  refine ⟨fun loading => ?_, fun opened unknown => ?_, fun opened t known => ⟨fun outside => ?_, fun low high => ?_⟩⟩
  · rw [State.tableRead_loading (s := s.hunting) loading]
    rfl
  · rw [State.tableRead_badTarget (s := s.hunting) opened (TableId.ofCode_eq_none unknown)]
    rfl
  · rw [State.tableRead_badIndex (s := s.hunting) opened known ((outsideTable_iff t first count).mpr outside)]
    rfl
  · have inside : ¬ outsideTable t first count = true := by
      rw [outsideTable_iff]
      omega
    rw [State.tableRead_of_inside (s := s.hunting) opened known inside]
    refine ⟨fun misfit => ?_, fun some fits => ?_⟩
    · rw [if_pos misfit]
      rfl
    · rw [if_neg (by omega)]
      rfl

/-- Settles O23: the checks of R17 in their order; a piece of the payload that stands for no record refuses the write. -/
theorem tableWriteRefusalsWriteNothing : Obligations.TableWriteRefusalsWriteNothing := by
  intro s table first bytes started ht hf
  dsimp only
  intro length
  rw [exec_tableWrite started ht hf length]
  refine ⟨fun editing invalid => ?_, fun opened => ?_⟩
  · rw [State.tableWrite_closed (s := s.hunting) editing invalid]
    rfl
  · rw [State.tableWrite_of_open (s := s.hunting) opened]
    refine ⟨fun unknown => ?_, fun t known => ⟨fun outside => ?_, fun low high unread => ?_⟩⟩
    · rw [TableId.ofCode_eq_none unknown]
      rfl
    · simp only [known, (outsideTable_iff t first _).mpr outside, if_true]
      rfl
    · have inside : ¬ outsideTable t first (bytes.length / t.recordBytes) = true := by
        rw [outsideTable_iff]
        omega
      simp only [known, inside, recordsOfBytes_eq_none unread]
      rfl

end

section
/-! SUPPORT. Opens, loads, drains and failed closes: what each leaves of the part (R13 to R21, R97, R159). -/

namespace Sys2Proof.Machine

/-! ### Proceeding, and leaving VALID -/

section

variable (s : State) (cause : SiteCause)

theorem State.proceed_openSession : s.proceed .openSession cause = { s with
    site := { s.site with state := .editing }
    conditions := { s.conditions with timer := none }
    flow := { s.flow with timer := none, cycle := none }
    link := s.link.offer (.siteState .editing s.site.generation cause) } := rfl

theorem State.proceed_load (address : Nat) : s.proceed (.load address) cause = { s with
    site := { s.site with state := .loading }
    transfer := { state := .readyWait, operation := some .load, address := some address, imageLength := none
                  check := 0, expected := 0, offset := 0, position := none, sent := [.readStatus]
                  last := s.transfer.last }
    conditions := { s.conditions with timer := none }
    flow := { s.flow with timer := none, cycle := none }
    link := s.link.offer (.siteState .loading s.site.generation cause) } := rfl

/-- R14, R97: the state in which the queue of a VALID site has been dropped, with these screens. -/
def State.withQueueDropped (screens : Table ScreenStatus) : State :=
  { s with
    dispatcher := { screens := screens, queue := [] }
    link := s.link.offerAll (s.dispatcher.queue.map fun e => e.request.droppedNotice .site) }

/-- R97, R98: every waiting request's screen is IDLE, and no other changes. -/
structure State.ScreensDropped (screens : Table ScreenStatus) : Prop where
  dropped : ∀ e ∈ s.dispatcher.queue, Table.get .idle screens e.request.screen = .idle
  others : ∀ i, (∀ e ∈ s.dispatcher.queue, e.request.screen ≠ i) → Table.get .idle screens i = s.screen i

variable {s}

/-- R14, R15, R21: from VALID the queue is dropped, and the site drains or proceeds. -/
theorem State.leaveValid_eq (canonical : Table.wf .idle s.dispatcher.screens = true) (work : Drain) :
    ∃ screens, s.ScreensDropped screens ∧
      (¬ s.Searching → s.leaveValid work cause = (s.withQueueDropped screens).proceed work cause) ∧
      (s.Searching →
        s.leaveValid work cause = ((s.withQueueDropped screens).setDrain (some work)).moveSiteWithNotice .draining cause) := by
  obtain ⟨screens, eq, -, dropped, others⟩ := s.dropQueue_eq canonical
  have searching : (s.withQueueDropped screens).anySearching = s.anySearching := rfl
  have eq : s.dropQueue = s.withQueueDropped screens := eq
  refine ⟨screens, ⟨dropped, others⟩, fun idle => ?_, fun runs => ?_⟩
  · rw [State.leaveValid, eq, searching]
    exact if_neg (mt s.anySearching_iff.mp idle)
  · rw [State.leaveValid, eq, searching]
    exact if_pos (s.anySearching_iff.mpr runs)

end

/-! ### The checks of an open, a load and a close -/

section

variable {s : State}

theorem State.siteOpen_busy (runs : s.transfer.state ≠ .idle) : s.siteOpen = refuse s .transferBusy :=
  if_pos (s.transferRuns_iff.mpr runs)

theorem State.siteOpen_egress (idle : s.transfer.state = .idle) (egress : s.egress.mode = .egress) :
    s.siteOpen = refuse s .egressActive := by
  rw [State.siteOpen, if_neg (mt s.transferRuns_iff.mp (not_not.mpr idle)), if_pos egress]

theorem State.siteOpen_of_idle (idle : s.transfer.state = .idle) (normal : s.egress.mode = .normal) : s.siteOpen =
    match s.site.state with
    | .empty => accept (s.proceed .openSession .openSession)
    | .invalid => accept (s.proceed .openSession .openSession)
    | .editing => accept s
    | .valid => accept (s.leaveValid .openSession .openSession)
    | .draining => refuse s .wrongState
    | .loading => refuse s .wrongState :=
  (if_neg (mt s.transferRuns_iff.mp (not_not.mpr idle))).trans (if_neg (by simp [normal]))

variable {address : Nat}

theorem State.siteLoad_tooLarge (outside : 16777216 < address + 32) : s.siteLoad address = refuse s .tooLarge :=
  if_pos outside

theorem State.siteLoad_busy (fits : address + 32 ≤ 16777216) (runs : s.transfer.state ≠ .idle) :
    s.siteLoad address = refuse s .transferBusy := by
  rw [State.siteLoad, if_neg (Nat.not_lt.mpr fits), if_pos (s.transferRuns_iff.mpr runs)]

theorem State.siteLoad_egress (fits : address + 32 ≤ 16777216) (idle : s.transfer.state = .idle)
    (egress : s.egress.mode = .egress) : s.siteLoad address = refuse s .egressActive := by
  rw [State.siteLoad, if_neg (Nat.not_lt.mpr fits), if_neg (mt s.transferRuns_iff.mp (not_not.mpr idle)), if_pos egress]

theorem State.siteLoad_of_idle (fits : address + 32 ≤ 16777216) (idle : s.transfer.state = .idle)
    (normal : s.egress.mode = .normal) : s.siteLoad address =
    match s.site.state with
    | .empty => accept (s.proceed (.load address) .load)
    | .invalid => accept (s.proceed (.load address) .load)
    | .editing => accept (s.proceed (.load address) .load)
    | .valid => accept (s.leaveValid (.load address) .load)
    | .draining => refuse s .wrongState
    | .loading => refuse s .wrongState :=
  (if_neg (Nat.not_lt.mpr fits)).trans
    ((if_neg (mt s.transferRuns_iff.mp (not_not.mpr idle))).trans (if_neg (by simp [normal])))

theorem State.siteClose_busy (runs : s.transfer.state ≠ .idle) : s.siteClose = refuse s .transferBusy :=
  if_pos (s.transferRuns_iff.mpr runs)

theorem State.siteClose_closed (idle : s.transfer.state = .idle) (editing : s.site.state ≠ .editing)
    (invalid : s.site.state ≠ .invalid) : s.siteClose = refuse s .wrongState := by
  rw [State.siteClose, if_neg (mt s.transferRuns_iff.mp (not_not.mpr idle)), if_neg (by simp [editing, invalid])]

theorem State.siteClose_of_open (idle : s.transfer.state = .idle)
    (opened : s.site.state = .editing ∨ s.site.state = .invalid) : s.siteClose =
    match s.site.firstFailure with
    | none => { code := .ok, data := closeData (some (s.enterValid .close).site.generation) none, state := s.enterValid .close }
    | some failure =>
      { code := .ok, data := closeData none (some failure), state := s.moveSiteWithNotice .invalid .close } :=
  (if_neg (mt s.transferRuns_iff.mp (not_not.mpr idle))).trans (if_pos (by simpa using opened))

end

theorem exec_siteOpen {s : State} (h : s.Started) :
    exec (.siteOpen []) s = .next (s.hunting.siteOpen.replied .siteOpen) :=
  congrArg Host.Outcome.next (State.take_of_started h rfl _)

theorem exec_siteClose {s : State} (h : s.Started) :
    exec (.siteClose []) s = .next (s.hunting.siteClose.replied .siteClose) :=
  congrArg Host.Outcome.next (State.take_of_started h rfl _)

theorem exec_siteLoad {s : State} (h : s.Started) {address : Nat} (bound : address < 4294967296) :
    exec (.siteLoad (le32 address)) s = .next ((s.hunting.siteLoad address).replied .siteLoad) := by
  have read : longAt (le32 address) 0 = address := longAt_le32 bound []
  change Host.Outcome.next (s.take _ _ _) = _
  rw [State.take_of_started h rfl, read]

theorem exec_drainEnd {s : State} (running : s.Running) : exec .drainEnd s = .next s.drainEnd :=
  congrArg Host.Outcome.next (State.event_of_running running _)

/-- R15: with no lane SEARCHING the pending work proceeds. -/
theorem State.drainEnd_eq {s : State} (draining : s.site.state = .draining) (idle : ¬ s.Searching) {work : Drain}
    (pending : s.site.drain = some work) : s.drainEnd = (s.setDrain none).proceed work .drain := by
  rw [State.drainEnd, if_pos (by simp [draining, s.anySearching_eq_false_iff.mpr idle]), pending]

end Sys2Proof.Machine
end

section

open Sys2Proof Sys2Proof.Machine

/-- Settles O24: the checks of SITE OPEN in their order; from VALID the queue is dropped first (`State.leaveValid_eq`). -/
theorem siteOpenOpensOrDrains : Obligations.SiteOpenOpensOrDrains := by
  intro s started canonical
  rw [exec_siteOpen started]
  refine ⟨fun runs => ?_, fun idle egress => ?_, fun idle normal => ?_⟩
  · rw [State.siteOpen_busy (s := s.hunting) runs]
    rfl
  · rw [State.siteOpen_egress (s := s.hunting) idle egress]
    rfl
  · rw [State.siteOpen_of_idle (s := s.hunting) idle normal, s.hunting_site]
    refine ⟨fun closed => ?_, fun editing => ?_, fun draining => ?_, fun valid => ?_⟩
    · have opened := Answer.replied_of_offers (a := accept (s.hunting.proceed .openSession .openSession))
        (notices := [.siteState .editing s.site.generation .openSession]) rfl .siteOpen
      rcases closed with empty | invalid
      · rw [empty]
        exact congrArg Host.Outcome.next opened
      · rw [invalid]
        exact congrArg Host.Outcome.next opened
    · rw [editing]
      rfl
    · rw [draining]
      rfl
    · rw [valid]
      obtain ⟨screens, drops, opens, drains⟩ := State.leaveValid_eq .openSession (s := s.hunting) canonical.screens .openSession
      refine ⟨_, rfl, ?_⟩
      by_cases searching : s.Searching
      · dsimp only
        rw [drains searching, Answer.replied_of_offers (s.link.toHunt.offerAll_concat _ _)]
        exact ⟨rfl, drops.dropped, drops.others, fun idle => absurd searching idle, fun _ => rfl⟩
      · dsimp only
        rw [opens searching, Answer.replied_of_offers (s.link.toHunt.offerAll_concat _ _)]
        exact ⟨rfl, drops.dropped, drops.others, fun _ => rfl, fun runs => absurd runs searching⟩

/-- Settles O25: the checks of SITE LOAD in their order; from VALID the queue is dropped first (`State.leaveValid_eq`). -/
theorem siteLoadStartsOrWaits : Obligations.SiteLoadStartsOrWaits := by
  intro s address started canonical bound
  dsimp only
  rw [exec_siteLoad started bound]
  refine ⟨fun outside => ?_, fun fits => ⟨fun runs => ?_, fun idle egress => ?_, fun idle normal => ?_⟩⟩
  · rw [State.siteLoad_tooLarge (s := s.hunting) outside]
    rfl
  · rw [State.siteLoad_busy (s := s.hunting) fits runs]
    rfl
  · rw [State.siteLoad_egress (s := s.hunting) fits idle egress]
    rfl
  · rw [State.siteLoad_of_idle (s := s.hunting) fits idle normal, s.hunting_site]
    refine ⟨fun draining => ?_, fun closed => ?_, fun valid => ?_⟩
    · rw [draining]
      rfl
    · have loads := Answer.replied_of_offers (a := accept (s.hunting.proceed (.load address) .load))
        (notices := [.siteState .loading s.site.generation .load]) rfl .siteLoad
      rcases closed with empty | invalid | editing
      · rw [empty]
        exact congrArg Host.Outcome.next loads
      · rw [invalid]
        exact congrArg Host.Outcome.next loads
      · rw [editing]
        exact congrArg Host.Outcome.next loads
    · rw [valid]
      obtain ⟨screens, drops, loads, drains⟩ := State.leaveValid_eq .load (s := s.hunting) canonical.screens (.load address)
      refine ⟨_, rfl, ?_⟩
      by_cases searching : s.Searching
      · dsimp only
        rw [drains searching, Answer.replied_of_offers (s.link.toHunt.offerAll_concat _ _)]
        exact ⟨rfl, drops.dropped, drops.others, fun idle => absurd searching idle, fun _ => rfl⟩
      · dsimp only
        rw [loads searching, Answer.replied_of_offers (s.link.toHunt.offerAll_concat _ _)]
        exact ⟨rfl, drops.dropped, drops.others, fun _ => rfl, fun runs => absurd runs searching⟩

/-- Settles O26: with no lane SEARCHING the pending work proceeds (`State.drainEnd_eq`). -/
theorem drainEndsWhenNoLaneSearches : Obligations.DrainEndsWhenNoLaneSearches := by
  intro s running draining
  rw [exec_drainEnd running]
  refine ⟨fun searching => ?_, fun idle pending => ?_, fun address idle pending => ?_⟩
  · rw [State.drainEnd, if_neg]
    simp [s.anySearching_iff.mpr searching]
  · rw [State.drainEnd_eq draining idle pending]
    rfl
  · rw [State.drainEnd_eq draining idle pending]
    rfl

/-- Settles O28: the checks of SITE CLOSE in their order, and the first failure reported. -/
theorem siteCloseReportsTheFirstFailure : Obligations.SiteCloseReportsTheFirstFailure := by
  intro s started
  rw [exec_siteClose started]
  refine ⟨fun runs => ?_, fun idle closed => ?_, fun failure idle opened fails => ?_⟩
  · rw [State.siteClose_busy (s := s.hunting) runs]
    rfl
  · have editing : s.site.state ≠ .editing := by rcases closed with e | e | e <;> simp [e]
    have invalid : s.site.state ≠ .invalid := by rcases closed with e | e | e <;> simp [e]
    rw [State.siteClose_closed (s := s.hunting) idle editing invalid]
    rfl
  · rw [State.siteClose_of_open (s := s.hunting) idle opened, s.hunting_site, fails]
    dsimp only
    rw [Answer.replied_of_offers (notices := [.siteState .invalid s.site.generation .close]) rfl]
    rfl

end

section
/-! SUPPORT. The codes of fields, and the words and bytes of records (R2 to R12, R179): what is written reads back, and nothing
else does. -/

namespace Sys2Proof.Machine

/-! ### Codes -/

theorem flagOfCode_eq_some_iff {n : Nat} {b : Bool} : flagOfCode n = some b ↔ flagCode b = n := by
  constructor
  · intro h
    unfold flagOfCode at h
    split at h <;> cases h <;> rfl
  · rintro rfl
    cases b <;> rfl

theorem EdgeClass.ofCode_eq_some_iff {n : Nat} {x : EdgeClass} : EdgeClass.ofCode n = some x ↔ x.code = n := by
  constructor
  · intro h
    unfold EdgeClass.ofCode at h
    split at h <;> cases h <;> rfl
  · rintro rfl
    cases x <;> rfl

theorem DirectionMode.ofCode_eq_some_iff {n : Nat} {x : DirectionMode} : DirectionMode.ofCode n = some x ↔ x.code = n := by
  constructor
  · intro h
    unfold DirectionMode.ofCode at h
    split at h <;> cases h <;> rfl
  · rintro rfl
    cases x <;> rfl

theorem Selection.ofCode_eq_some_iff {n : Nat} {x : Selection} : Selection.ofCode n = some x ↔ x.code = n := by
  constructor
  · intro h
    unfold Selection.ofCode at h
    split at h <;> cases h <;> rfl
  · rintro rfl
    cases x <;> rfl

theorem DirectoryKind.ofCode_eq_some_iff {n : Nat} {x : DirectoryKind} : DirectoryKind.ofCode n = some x ↔ x.code = n := by
  constructor
  · intro h
    unfold DirectoryKind.ofCode at h
    split at h <;> cases h <;> rfl
  · rintro rfl
    cases x <;> rfl

theorem Closure.ofCode_eq_some_iff {n : Nat} {x : Closure} : Closure.ofCode n = some x ↔ x.code = n := by
  constructor
  · intro h
    unfold Closure.ofCode at h
    split at h <;> cases h <;> rfl
  · rintro rfl
    cases x <;> rfl

theorem Role.ofCode_eq_some_iff {n : Nat} {x : Role} : Role.ofCode n = some x ↔ x.code = n := by
  constructor
  · intro h
    unfold Role.ofCode at h
    split at h <;> cases h <;> rfl
  · rintro rfl
    cases x <;> rfl

theorem Motion.ofCode_eq_some_iff {n : Nat} {x : Motion} : Motion.ofCode n = some x ↔ x.code = n := by
  constructor
  · intro h
    unfold Motion.ofCode at h
    split at h <;> cases h <;> rfl
  · rintro rfl
    cases x <;> rfl

theorem TargetKind.ofCode_eq_some_iff {n : Nat} {x : TargetKind} : TargetKind.ofCode n = some x ↔ x.code = n := by
  constructor
  · intro h
    unfold TargetKind.ofCode at h
    split at h <;> cases h <;> rfl
  · rintro rfl
    cases x <;> rfl

theorem headingOfCode_eq_some_iff {n : Nat} {h : Option Nat} (range : optionBelow 8 h = true) :
    headingOfCode n = some h ↔ headingCode h = n := by
  unfold headingOfCode headingCode
  cases h with
  | none =>
    simp only [Option.getD_none]
    split
    · simp; omega
    · split <;> simp <;> omega
  | some k =>
    have bound : k < 8 := by simpa [optionBelow] using range
    simp only [Option.getD_some]
    split
    · simp [eq_comm]
    · split <;> simp <;> omega

/-- R11: the codes of the values of a kind. -/
theorem Setting.ofCode_eq_some_iff {kind : TargetKind} {n : Nat} {v : Setting} (belongs : v.belongsTo kind = true) :
    Setting.ofCode kind n = some v ↔ v.code = n := by
  cases v with
  | closure c =>
    cases kind with
    | motion => cases belongs
    | edge => simp [Setting.ofCode, Setting.code, Closure.ofCode_eq_some_iff]
    | gate => simp [Setting.ofCode, Setting.code, Closure.ofCode_eq_some_iff]
  | motion m =>
    cases kind with
    | motion => simp [Setting.ofCode, Setting.code, Motion.ofCode_eq_some_iff]
    | edge => cases belongs
    | gate => cases belongs

theorem Setting.code_of_ofCode {kind : TargetKind} {n : Nat} {v : Setting} (h : Setting.ofCode kind n = some v) :
    v.code = n := by
  cases kind <;> simp only [Setting.ofCode, Option.map_eq_some_iff] at h <;> obtain ⟨x, code, rfl⟩ := h
  · exact Closure.ofCode_eq_some_iff.mp code
  · exact Motion.ofCode_eq_some_iff.mp code
  · exact Closure.ofCode_eq_some_iff.mp code

@[simp] theorem flagOfCode_flagCode (b : Bool) : flagOfCode (flagCode b) = some b := flagOfCode_eq_some_iff.mpr rfl

@[simp] theorem EdgeClass.ofCode_code (x : EdgeClass) : EdgeClass.ofCode x.code = some x := EdgeClass.ofCode_eq_some_iff.mpr rfl

@[simp] theorem DirectionMode.ofCode_code (x : DirectionMode) : DirectionMode.ofCode x.code = some x :=
  DirectionMode.ofCode_eq_some_iff.mpr rfl

@[simp] theorem Selection.ofCode_code (x : Selection) : Selection.ofCode x.code = some x :=
  Selection.ofCode_eq_some_iff.mpr rfl

@[simp] theorem DirectoryKind.ofCode_code (x : DirectoryKind) : DirectoryKind.ofCode x.code = some x :=
  DirectoryKind.ofCode_eq_some_iff.mpr rfl

@[simp] theorem Role.ofCode_code (x : Role) : Role.ofCode x.code = some x := Role.ofCode_eq_some_iff.mpr rfl

@[simp] theorem TargetKind.ofCode_code (x : TargetKind) : TargetKind.ofCode x.code = some x :=
  TargetKind.ofCode_eq_some_iff.mpr rfl

theorem headingCode_of_headingOfCode {n : Nat} {h : Option Nat} (read : headingOfCode n = some h) : headingCode h = n := by
  unfold headingOfCode at read
  split at read
  · cases read
    rfl
  · split at read
    next eight =>
      cases read
      exact eight.symm
    · cases read

@[simp] theorem optionWord_optionOfWord (w : Nat) : optionWord (optionOfWord w) = w := by
  unfold optionOfWord optionWord
  split
  next h => exact h.symm
  · rfl

theorem optionOfWord_optionWord {o : Option Nat} {bound : Nat} (range : optionBelow bound o = true) (fits : bound ≤ 65535) :
    optionOfWord (optionWord o) = o := by
  cases o with
  | none => rfl
  | some n =>
    have below : n < bound := by simpa [optionBelow] using range
    exact if_neg (show n ≠ 65535 by omega)

/-! ### Words -/

theorem Header.ofWords_eq_some_iff {h : Header} {words : List Nat} : Header.ofWords words = some h ↔ h.words = words := by
  constructor
  · intro read
    unfold Header.ofWords at read
    split at read <;> cases read
    rfl
  · rintro rfl
    rfl

theorem Node.ofWords_eq_some_iff {n : Node} (range : n.inRange = true) {words : List Nat} :
    Node.ofWords words = some n ↔ n.words = words := by
  simp only [Node.inRange, Bool.and_eq_true] at range
  constructor
  · intro read
    unfold Node.ofWords at read
    split at read <;> cases read
    simp [Node.words]
  · rintro rfl
    simp [Node.words, Node.ofWords, optionOfWord_optionWord range.1.1.2]

theorem Edge.ofWords_eq_some_iff {e : Edge} (range : e.inRange = true) {words : List Nat} :
    Edge.ofWords words = some e ↔ e.words = words := by
  simp only [Edge.inRange, Bool.and_eq_true] at range
  obtain ⟨⟨⟨⟨-, heading⟩, -⟩, gate⟩, channel⟩ := range
  constructor
  · intro read
    unfold Edge.ofWords at read
    split at read
    · split at read
      next cls heading' direction closed =>
        cases read
        simp [Edge.words, EdgeClass.ofCode_eq_some_iff.mp cls, headingCode_of_headingOfCode heading',
          DirectionMode.ofCode_eq_some_iff.mp direction, flagOfCode_eq_some_iff.mp closed]
      · cases read
    · cases read
  · rintro rfl
    simp [Edge.words, Edge.ofWords, (headingOfCode_eq_some_iff heading).mpr rfl, optionOfWord_optionWord gate,
      optionOfWord_optionWord channel]

theorem Group.ofWords_eq_some_iff {g : Group} {words : List Nat} : Group.ofWords words = some g ↔ g.words = words := by
  constructor
  · intro read
    unfold Group.ofWords at read
    split at read
    · obtain ⟨selection, code, rfl⟩ := Option.map_eq_some_iff.mp read
      simp [Group.words, Selection.ofCode_eq_some_iff.mp code]
    · cases read
  · rintro rfl
    simp [Group.words, Group.ofWords]

theorem Member.ofWords_eq_some_iff {m : Member} (range : m.inRange = true) {words : List Nat} :
    Member.ofWords words = some m ↔ m.words = words := by
  simp only [Member.inRange, Bool.and_eq_true] at range
  constructor
  · intro read
    unfold Member.ofWords at read
    split at read <;> cases read
    simp [Member.words]
  · rintro rfl
    simp [Member.words, Member.ofWords, optionOfWord_optionWord range.2]

theorem DirectoryEntry.ofWords_eq_some_iff {d : DirectoryEntry} (range : d.inRange = true) {words : List Nat} :
    DirectoryEntry.ofWords words = some d ↔ d.words = words := by
  simp only [DirectoryEntry.inRange, Bool.and_eq_true] at range
  constructor
  · intro read
    unfold DirectoryEntry.ofWords at read
    split at read
    · obtain ⟨kind, code, rfl⟩ := Option.map_eq_some_iff.mp read
      simp [DirectoryEntry.words, DirectoryKind.ofCode_eq_some_iff.mp code]
    · cases read
  · rintro rfl
    simp [DirectoryEntry.words, DirectoryEntry.ofWords, optionOfWord_optionWord range.2]

/-- R8: the set of allowed classes, bit by bit. -/
theorem Profile.allowedCode_testBits {set : Nat} (bound : set < 16) :
    flagCode (set.testBit 0) + 2 * flagCode (set.testBit 1) + 4 * flagCode (set.testBit 2) + 8 * flagCode (set.testBit 3) =
      set := by
  interval_cases set <;> rfl

theorem Profile.testBits_allowedCode (p : Profile) : p.allowedCode < 16 ∧ p.allowedCode.testBit 0 = p.stairs ∧
    p.allowedCode.testBit 1 = p.escalator ∧ p.allowedCode.testBit 2 = p.travelator ∧ p.allowedCode.testBit 3 = p.elevator := by
  unfold Profile.allowedCode
  cases p.stairs <;> cases p.escalator <;> cases p.travelator <;> cases p.elevator <;> decide

theorem Profile.ofWords_eq_some_iff {p : Profile} {words : List Nat} : Profile.ofWords words = some p ↔ p.words = words := by
  constructor
  · intro read
    unfold Profile.ofWords at read
    split at read
    · split at read
      next bound =>
        cases read
        simpa [Profile.words, Profile.allowedCode] using Profile.allowedCode_testBits bound
      · cases read
    · cases read
  · rintro rfl
    obtain ⟨bound, stairs, escalator, travelator, elevator⟩ := p.testBits_allowedCode
    simp [Profile.words, Profile.ofWords, bound, stairs, escalator, travelator, elevator]

theorem Screen.ofWords_eq_some_iff {x : Screen} {words : List Nat} : Screen.ofWords words = some x ↔ x.words = words := by
  constructor
  · intro read
    unfold Screen.ofWords at read
    split at read
    · obtain ⟨enabled, code, rfl⟩ := Option.map_eq_some_iff.mp read
      simp [Screen.words, flagOfCode_eq_some_iff.mp code]
    · cases read
  · rintro rfl
    simp [Screen.words, Screen.ofWords]

theorem ChannelConfig.ofWords_eq_some_iff {c : ChannelConfig} {words : List Nat} :
    ChannelConfig.ofWords words = some c ↔ c.words = words := by
  constructor
  · intro read
    unfold ChannelConfig.ofWords at read
    split at read
    · split at read
      next enabled role =>
        cases read
        simp [ChannelConfig.words, flagOfCode_eq_some_iff.mp enabled, Role.ofCode_eq_some_iff.mp role]
      · cases read
    · cases read
  · rintro rfl
    simp [ChannelConfig.words, ChannelConfig.ofWords]

theorem ScheduleEntry.ofWords_eq_some_iff {e : ScheduleEntry} (range : e.inRange = true) {words : List Nat} :
    ScheduleEntry.ofWords words = some e ↔ e.words = words := by
  simp only [ScheduleEntry.inRange, Bool.and_eq_true] at range
  constructor
  · intro read
    unfold ScheduleEntry.ofWords at read
    split at read
    · split at read
      next enabled kind =>
        split at read
        next days =>
          obtain ⟨value, code, rfl⟩ := Option.map_eq_some_iff.mp read
          simp [ScheduleEntry.words, flagOfCode_eq_some_iff.mp enabled, TargetKind.ofCode_eq_some_iff.mp kind,
            Setting.code_of_ofCode code, Nat.mod_eq_of_lt days]
        · cases read
      · cases read
    · cases read
  · rintro rfl
    have days := e.days.isLt
    simp [ScheduleEntry.words, ScheduleEntry.ofWords, (Setting.ofCode_eq_some_iff range.2).mpr rfl, days]

theorem Record.table_of_ofWords {t : TableId} {words : List Nat} {r : Record} (h : Record.ofWords t words = some r) :
    r.table = t := by
  cases t <;> simp only [Record.ofWords, Option.map_eq_some_iff] at h <;> obtain ⟨_, -, rfl⟩ := h <;> rfl

/-- A record of one field reads its first word. -/
theorem head_eq_some_iff {words : List Nat} (single : words.length = 1) {w : Nat} : words.head? = some w ↔ [w] = words := by
  obtain ⟨x, rfl⟩ := List.length_eq_one_iff.mp single
  simp [eq_comm]

theorem Record.ofWords_table_eq_some_iff {r : Record} (range : r.inRange = true) {words : List Nat}
    (length : words.length = r.table.fields) : Record.ofWords r.table words = some r ↔ r.words = words := by
  cases r with
  | header r => simp [Record.ofWords, Record.table, Record.words, Header.ofWords_eq_some_iff]
  | node r => simp [Record.ofWords, Record.table, Record.words, Node.ofWords_eq_some_iff range]
  | edge r => simp [Record.ofWords, Record.table, Record.words, Edge.ofWords_eq_some_iff range]
  | adjacency e => simp [Record.ofWords, Record.table, Record.words, head_eq_some_iff length]
  | group r => simp [Record.ofWords, Record.table, Record.words, Group.ofWords_eq_some_iff]
  | member r => simp [Record.ofWords, Record.table, Record.words, Member.ofWords_eq_some_iff range]
  | directory r => simp [Record.ofWords, Record.table, Record.words, DirectoryEntry.ofWords_eq_some_iff range]
  | gate c =>
    obtain ⟨w, rfl⟩ := List.length_eq_one_iff.mp length
    simp [Record.ofWords, Record.table, Record.words, Closure.ofCode_eq_some_iff]
  | profile r => simp [Record.ofWords, Record.table, Record.words, Profile.ofWords_eq_some_iff]
  | screen r => simp [Record.ofWords, Record.table, Record.words, Screen.ofWords_eq_some_iff]
  | channel r => simp [Record.ofWords, Record.table, Record.words, ChannelConfig.ofWords_eq_some_iff]
  | schedule r => simp [Record.ofWords, Record.table, Record.words, ScheduleEntry.ofWords_eq_some_iff range]

/-- R179: the words that a record in range has stand for it, and no others do. -/
theorem Record.ofWords_eq_some_iff {r : Record} (range : r.inRange = true) {t : TableId} {words : List Nat}
    (length : words.length = t.fields) : Record.ofWords t words = some r ↔ r.table = t ∧ r.words = words := by
  constructor
  · intro read
    obtain rfl := Record.table_of_ofWords read
    exact ⟨rfl, (Record.ofWords_table_eq_some_iff range length).mp read⟩
  · rintro ⟨rfl, words⟩
    exact (Record.ofWords_table_eq_some_iff range length).mpr words

/-! ### Bytes -/

theorem Record.words_length (r : Record) : r.words.length = r.table.fields := by
  cases r <;> rfl

theorem optionWord_lt {o : Option Nat} {bound : Nat} (range : optionBelow bound o = true) (fits : bound ≤ 65535) :
    optionWord o < 65536 := by
  cases o with
  | none => decide
  | some n =>
    have below : n < bound := by simpa [optionBelow] using range
    exact show n < 65536 by omega

theorem headingCode_lt {h : Option Nat} (range : optionBelow 8 h = true) : headingCode h < 65536 := by
  cases h with
  | none => decide
  | some n =>
    have below : n < 8 := by simpa [optionBelow] using range
    exact show n < 65536 by omega

theorem flagCode_lt (b : Bool) : flagCode b < 65536 := by
  cases b <;> decide

theorem EdgeClass.code_lt (x : EdgeClass) : x.code < 65536 := by
  cases x <;> decide

theorem DirectionMode.code_lt (x : DirectionMode) : x.code < 65536 := by
  cases x <;> decide

theorem Selection.code_lt (x : Selection) : x.code < 65536 := by
  cases x <;> decide

theorem DirectoryKind.code_lt (x : DirectoryKind) : x.code < 65536 := by
  cases x <;> decide

theorem Closure.code_lt (x : Closure) : x.code < 65536 := by
  cases x <;> decide

theorem Role.code_lt (x : Role) : x.code < 65536 := by
  cases x <;> decide

theorem TargetKind.code_lt (x : TargetKind) : x.code < 65536 := by
  cases x <;> decide

theorem Setting.code_lt (x : Setting) : x.code < 65536 := by
  cases x with
  | closure c => exact c.code_lt
  | motion m => cases m <;> decide

/-- A field in range fits a word. -/
theorem Record.words_lt {r : Record} (range : r.inRange = true) : ∀ w ∈ r.words, w < 65536 := by
  cases r with
  | header r =>
    simp only [Record.inRange, Header.inRange, Bool.and_eq_true, decide_eq_true_eq] at range
    simp only [Record.words, Header.words, List.forall_mem_cons, List.not_mem_nil, false_imp_iff, implies_true, and_true]
    omega
  | node r =>
    simp only [Record.inRange, Node.inRange, Bool.and_eq_true, decide_eq_true_eq] at range
    have landmark := optionWord_lt range.1.1.2 (by decide)
    simp only [Record.words, Node.words, List.forall_mem_cons, List.not_mem_nil, false_imp_iff, implies_true, and_true]
    omega
  | edge r =>
    simp only [Record.inRange, Edge.inRange, Bool.and_eq_true, decide_eq_true_eq] at range
    obtain ⟨⟨⟨⟨numbers, heading⟩, ride⟩, gate⟩, channel⟩ := range
    simp only [Record.words, Edge.words, List.forall_mem_cons, List.not_mem_nil, false_imp_iff, implies_true, and_true]
    exact ⟨by omega, by omega, r.cls.code_lt, by omega, headingCode_lt heading, r.direction.code_lt, by omega,
      optionWord_lt gate (by decide), optionWord_lt channel (by decide), flagCode_lt _⟩
  | adjacency e =>
    simp only [Record.inRange, decide_eq_true_eq] at range
    simp only [Record.words, List.forall_mem_cons, List.not_mem_nil, false_imp_iff, implies_true, and_true]
    omega
  | group r =>
    simp only [Record.inRange, Group.inRange, Bool.and_eq_true, decide_eq_true_eq] at range
    simp only [Record.words, Group.words, List.forall_mem_cons, List.not_mem_nil, false_imp_iff, implies_true, and_true]
    exact ⟨r.selection.code_lt, by omega, by omega⟩
  | member r =>
    simp only [Record.inRange, Member.inRange, Bool.and_eq_true, decide_eq_true_eq] at range
    simp only [Record.words, Member.words, List.forall_mem_cons, List.not_mem_nil, false_imp_iff, implies_true, and_true]
    exact ⟨by omega, optionWord_lt range.2 (by decide)⟩
  | directory r =>
    simp only [Record.inRange, DirectoryEntry.inRange, Bool.and_eq_true, decide_eq_true_eq] at range
    obtain ⟨⟨ref, category⟩, gate⟩ := range
    have ref : r.ref ≤ 2047 := by
      split at ref <;> simp only [decide_eq_true_eq] at ref <;> omega
    simp only [Record.words, DirectoryEntry.words, List.forall_mem_cons, List.not_mem_nil, false_imp_iff, implies_true,
      and_true]
    exact ⟨r.kind.code_lt, by omega, by omega, optionWord_lt gate (by decide)⟩
  | gate c => simpa [Record.words] using c.code_lt
  | profile r =>
    simp only [Record.inRange, Profile.inRange, Bool.and_eq_true, decide_eq_true_eq] at range
    have allowed := r.testBits_allowedCode.1
    simp only [Record.words, Profile.words, List.forall_mem_cons, List.not_mem_nil, false_imp_iff, implies_true, and_true]
    omega
  | screen r =>
    simp only [Record.inRange, Screen.inRange, Bool.and_eq_true, decide_eq_true_eq] at range
    have enabled := flagCode_lt r.enabled
    simp only [Record.words, Screen.words, List.forall_mem_cons, List.not_mem_nil, false_imp_iff, implies_true, and_true]
    omega
  | channel r =>
    simp only [Record.inRange, ChannelConfig.inRange, Bool.and_eq_true, decide_eq_true_eq] at range
    have enabled := flagCode_lt r.enabled
    have role := r.role.code_lt
    simp only [Record.words, ChannelConfig.words, List.forall_mem_cons, List.not_mem_nil, false_imp_iff, implies_true,
      and_true]
    omega
  | schedule r =>
    simp only [Record.inRange, ScheduleEntry.inRange, Bool.and_eq_true, decide_eq_true_eq] at range
    have index : r.target.index < 65536 := by
      have bound : r.target.kind.indexBound ≤ 4096 := by cases r.target.kind <;> decide
      omega
    have days := r.days.isLt
    simp only [Record.words, ScheduleEntry.words, List.forall_mem_cons, List.not_mem_nil, false_imp_iff, implies_true,
      and_true]
    exact ⟨flagCode_lt _, by omega, by omega, r.target.kind.code_lt, index, r.value.code_lt⟩

theorem wordAt_words (words : List Nat) (fill : List Byte) (i : Nat) (h : i < words.length) :
    wordAt (words.flatMap le16 ++ fill) (2 * i) = words[i] % 65536 := by
  induction words generalizing i with
  | nil => cases h
  | cons w rest ih =>
    have front : (w :: rest).flatMap le16 ++ fill =
        BitVec.ofNat 8 w :: BitVec.ofNat 8 (w / 256) :: (rest.flatMap le16 ++ fill) := by simp [le16]
    rw [front]
    cases i with
    | zero =>
      rw [Nat.mul_zero, wordAt_cons_zero, List.getElem_cons_zero]
      simp only [BitVec.toNat_ofNat]
      omega
    | succ i =>
      rw [show 2 * (i + 1) = 2 * i + 1 + 1 by omega, wordAt_cons_succ, wordAt_cons_succ, List.getElem_cons_succ]
      exact ih i (by simpa using h)

theorem wordAt_lt (bytes : List Byte) (i : Nat) : wordAt bytes i < 65536 := by
  unfold wordAt
  generalize bytes.drop i = rest
  match rest with
  | [] => decide
  | [b] =>
    have hb := b.isLt
    simp only [List.take_succ_cons, List.take_nil, ofLe]
    omega
  | b :: c :: _ =>
    have hb := b.isLt
    have hc := c.isLt
    simp only [List.take_succ_cons, List.take_zero, ofLe]
    omega

/-- R179: the words of a record in range read back. -/
theorem Record.wordAt_bytes {r : Record} (range : r.inRange = true) {i : Nat} (h : i < r.words.length) :
    wordAt r.bytes (2 * i) = r.words[i] :=
  (wordAt_words r.words _ i h).trans (Nat.mod_eq_of_lt (Record.words_lt range _ (List.getElem_mem h)))

theorem bytesToWords_length (count : Nat) (bytes : List Byte) : (bytesToWords count bytes).length = count := by
  simp [bytesToWords]

/-- Bytes hold a record's words when each word reads as the record's own bytes hold it. -/
theorem Record.words_eq_iff {r : Record} (range : r.inRange = true) (bytes : List Byte) :
    r.words = bytesToWords r.table.fields bytes ↔
      ∀ i, i < r.table.fields → wordAt bytes (2 * i) = wordAt r.bytes (2 * i) := by
  have length := r.words_length
  constructor
  · intro same i hi
    rw [Record.wordAt_bytes range (length ▸ hi)]
    simp [same, bytesToWords]
  · intro each
    refine List.ext_getElem (by rw [length, bytesToWords_length]) fun i hi hi' => ?_
    rw [← Record.wordAt_bytes range hi, ← each i (length ▸ hi)]
    simp [bytesToWords]

/-- R17 step 4, R161: the record that bytes stand for. -/
theorem Record.ofBytes_eq_some_iff {t : TableId} {bytes : List Byte} {r : Record} : Record.ofBytes t bytes = some r ↔
    r.table = t ∧ r.inRange = true ∧ ∀ i, i < t.fields → wordAt bytes (2 * i) = wordAt r.bytes (2 * i) := by
  rw [Record.ofBytes, Option.filter_eq_some_iff]
  constructor
  · rintro ⟨read, range⟩
    obtain ⟨rfl, words⟩ := (Record.ofWords_eq_some_iff range (bytesToWords_length _ _)).mp read
    exact ⟨rfl, range, (Record.words_eq_iff range bytes).mp words⟩
  · rintro ⟨rfl, range, words⟩
    exact ⟨(Record.ofWords_eq_some_iff range (bytesToWords_length _ _)).mpr
      ⟨rfl, (Record.words_eq_iff range bytes).mpr words⟩, range⟩

theorem Record.ofBytes_bytes {r : Record} (range : r.inRange = true) : Record.ofBytes r.table r.bytes = some r :=
  Record.ofBytes_eq_some_iff.mpr ⟨rfl, range, fun _ _ => rfl⟩

theorem Record.bytes_length (r : Record) : r.bytes.length = r.table.recordBytes := by
  rw [Record.bytes, wordsToBytes_length, Record.words_length]
  cases r.table <;> rfl

end Sys2Proof.Machine
end

section
/-! SUPPORT. The ranges of a record, field by field. -/
namespace Sys2Proof.Machine

theorem optionBelow_iff {bound : Nat} {o : Option Nat} : optionBelow bound o = true ↔ ∀ n, o = some n → n < bound := by
  cases o with
  | none => simp [optionBelow]
  | some n => simp [optionBelow]

theorem Header.inRange_iff_bounds (h : Header) : h.inRange = true ↔
    h.nodeCount ≤ 2048 ∧ h.edgeCount ≤ 4096 ∧ h.adjacencyCount ≤ 8192 ∧ h.groupCount ≤ 256 ∧ h.memberCount ≤ 2048 ∧
      h.directoryCount ≤ 1024 ∧ h.scheduleCount ≤ 128 ∧ h.exitGroup ≤ 255 ∧ 16 ≤ h.fBusy ∧ h.fBusy ≤ 255 ∧
      16 ≤ h.fCrowded ∧ h.fCrowded ≤ 255 ∧ 16 ≤ h.fUnknown ∧ h.fUnknown ≤ 255 := by
  simp only [Header.inRange_iff, and_assoc]

theorem Node.inRange_iff (n : Node) : n.inRange = true ↔
    n.floor ≤ 15 ∧ (∀ m, n.landmark = some m → m < 1024) ∧ n.adjacencyStart ≤ 8191 ∧ n.adjacencyCount ≤ 8 := by
  simp only [Node.inRange, Bool.and_eq_true, decide_eq_true_eq, optionBelow_iff, and_assoc]

theorem Edge.inRange_iff (e : Edge) : e.inRange = true ↔
    e.a ≤ 2047 ∧ e.b ≤ 2047 ∧ e.length ≤ 4095 ∧ (∀ n, e.heading = some n → n < 8) ∧ e.rideCode ≤ 15 ∧
      (∀ n, e.gate = some n → n < 64) ∧ ∀ n, e.channel = some n → n < 64 := by
  simp only [Edge.inRange, Bool.and_eq_true, decide_eq_true_eq, optionBelow_iff, and_assoc]

theorem Group.inRange_iff (g : Group) : g.inRange = true ↔ g.memberStart ≤ 2047 ∧ 1 ≤ g.memberCount ∧ g.memberCount ≤ 16 := by
  simp only [Group.inRange, Bool.and_eq_true, decide_eq_true_eq, and_assoc]

theorem Member.inRange_iff (m : Member) : m.inRange = true ↔ m.node ≤ 2047 ∧ ∀ n, m.gate = some n → n < 64 := by
  simp only [Member.inRange, Bool.and_eq_true, decide_eq_true_eq, optionBelow_iff]

theorem DirectoryEntry.inRange_iff (d : DirectoryEntry) : d.inRange = true ↔
    d.ref ≤ 2047 ∧ (d.kind = .group → d.ref ≤ 255) ∧ d.category ≤ 63 ∧ ∀ n, d.ownGate = some n → n < 64 := by
  simp only [DirectoryEntry.inRange, Bool.and_eq_true, decide_eq_true_eq, optionBelow_iff, and_assoc]
  by_cases group : d.kind = .group
  · simp only [group, if_true, decide_eq_true_eq, true_imp_iff, ← and_assoc]
    refine and_congr_left fun _ => and_congr_left fun _ => ⟨fun h => ⟨h.trans (by decide), h⟩, And.right⟩
  · simp only [group, if_false, decide_eq_true_eq, false_imp_iff, true_and]

theorem Profile.inRange_iff (p : Profile) : p.inRange = true ↔
    40 ≤ p.pace ∧ p.pace ≤ 200 ∧ 16 ≤ p.stairFactor ∧ p.stairFactor ≤ 64 ∧ p.liftWait ≤ 1200 ∧ p.aversion ≤ 4 := by
  simp only [Profile.inRange, Bool.and_eq_true, decide_eq_true_eq, and_assoc]

theorem Screen.inRange_iff (s : Screen) : s.inRange = true ↔
    s.node ≤ 2047 ∧ s.facing ≤ 7 ∧ s.profile ≤ 7 ∧ s.priority ≤ 3 := by
  simp only [Screen.inRange, Bool.and_eq_true, decide_eq_true_eq, and_assoc]

/-- R10: Tb is at least 1, so a hysteresis below Tb is one of at most Tb - 1. -/
theorem ChannelConfig.inRange_iff (c : ChannelConfig) : c.inRange = true ↔
    c.reference ≤ 63 ∧ c.weight ≤ 8191 ∧ 1 ≤ c.busy ∧ c.busy ≤ 1023 ∧ c.busy ≤ c.crowded ∧ c.crowded ≤ 1023 ∧
      c.hysteresis ≤ c.busy - 1 ∧ 1 ≤ c.ceiling ∧ c.ceiling ≤ 1023 ∧ 1 ≤ c.debounce ∧ c.debounce ≤ 8 ∧
      c.filterShift ≤ 7 ∧ 2 ≤ c.averageShift ∧ c.averageShift ≤ 12 ∧ c.activationShift ≤ 7 ∧ c.settleBand ≤ 255 ∧
      c.plateauSamples ≤ 255 ∧ 1 ≤ c.staleLimit ∧ c.staleLimit ≤ 15 := by
  simp only [ChannelConfig.inRange, Bool.and_eq_true, decide_eq_true_eq, and_assoc]
  refine and_congr_right fun _ => and_congr_right fun _ => and_congr_right fun positive => and_congr_right fun _ =>
    and_congr_right fun _ => and_congr_right fun _ => and_congr_left fun _ => ?_
  exact (Nat.le_sub_one_iff_lt positive).symm

/-- R11: a value belongs to its target kind. -/
theorem Setting.belongsTo_iff (v : Setting) (kind : TargetKind) : v.belongsTo kind = true ↔
    (kind = .motion → ∃ m, v = .motion m) ∧ (kind ≠ .motion → ∃ c, v = .closure c) := by
  cases v with
  | closure c => cases kind <;> simp [Setting.belongsTo]
  | motion m => cases kind <;> simp [Setting.belongsTo]

theorem TargetKind.lt_indexBound_iff (kind : TargetKind) (i : Nat) : i < kind.indexBound ↔
    (kind = .edge ∨ kind = .motion → i ≤ 4095) ∧ (kind = .gate → i ≤ 63) := by
  cases kind <;> simp [TargetKind.indexBound] <;> omega

theorem days_ne_zero_iff : ∀ days : BitVec 7, days ≠ 0 ↔ ∃ d, d < 7 ∧ days.getLsbD d = true := by
  decide

theorem ScheduleEntry.inRange_iff (e : ScheduleEntry) : e.inRange = true ↔
    e.minute ≤ 1439 ∧ (∃ d, d < 7 ∧ e.days.getLsbD d = true) ∧
      (e.target.kind = .edge ∨ e.target.kind = .motion → e.target.index ≤ 4095) ∧
      (e.target.kind = .gate → e.target.index ≤ 63) ∧ (e.target.kind = .motion → ∃ m, e.value = .motion m) ∧
      (e.target.kind ≠ .motion → ∃ c, e.value = .closure c) := by
  simp only [ScheduleEntry.inRange, Bool.and_eq_true, decide_eq_true_eq, days_ne_zero_iff, TargetKind.lt_indexBound_iff,
    Setting.belongsTo_iff, and_assoc]

/-- R179: the day set's word is the sum of its days' powers of two. -/
theorem days_toNat : ∀ days : BitVec 7,
    days.toNat = ((List.range 7).map fun d => if days.getLsbD d then 2 ^ d else 0).sum := by
  decide

/-- R179: STAIRS 1, ESCALATOR 2, TRAVELATOR 4, ELEVATOR 8. -/
theorem Profile.allowedCode_eq (p : Profile) : p.allowedCode =
    (if p.stairs then 1 else 0) + (if p.escalator then 2 else 0) + (if p.travelator then 4 else 0) +
      if p.elevator then 8 else 0 := by
  simp only [Profile.allowedCode, flagCode, mul_ite, mul_one, mul_zero]

/-- R179: an even number of words fills its record. -/
theorem Record.bytes_of_even {r : Record} {t : TableId} (table : r.table = t) (even : t.fields % 2 = 0) :
    r.bytes = r.words.flatMap le16 := by
  rw [Record.bytes, wordsToBytes, if_pos (by rw [r.words_length, table, even]), List.append_nil]

/-- R179: an odd number of words takes one more of zeros. -/
theorem Record.bytes_of_odd {r : Record} {t : TableId} (table : r.table = t) (odd : t.fields % 2 = 1) :
    r.bytes = (r.words ++ [0]).flatMap le16 := by
  rw [Record.bytes, wordsToBytes, if_neg (by rw [r.words_length, table, odd]; decide), List.flatMap_append]
  rfl

theorem optionWord_eq (o : Option Nat) : optionWord o = match o with | some n => n | none => 65535 := by
  cases o <;> rfl

theorem headingCode_eq (h : Option Nat) : headingCode h = match h with | some n => n | none => 8 := by
  cases h <;> rfl

theorem Node.words_eq (n : Node) : n.words =
    [n.floor, match n.landmark with | some m => m | none => 65535, n.adjacencyStart, n.adjacencyCount] := by
  simp only [Node.words, optionWord_eq]

theorem Edge.words_eq (e : Edge) : e.words =
    [e.a, e.b, e.cls.code, e.length, match e.heading with | some n => n | none => 8, e.direction.code, e.rideCode,
      match e.gate with | some n => n | none => 65535, match e.channel with | some n => n | none => 65535,
      flagCode e.closedByDefault] := by
  simp only [Edge.words, optionWord_eq, headingCode_eq]

theorem Member.words_eq (m : Member) : m.words = [m.node, match m.gate with | some n => n | none => 65535] := by
  simp only [Member.words, optionWord_eq]

theorem DirectoryEntry.words_eq (d : DirectoryEntry) : d.words =
    [d.kind.code, d.ref, d.category, match d.ownGate with | some n => n | none => 65535] := by
  simp only [DirectoryEntry.words, optionWord_eq]

theorem Profile.words_eq (p : Profile) : p.words =
    [p.pace, (if p.stairs then 1 else 0) + (if p.escalator then 2 else 0) + (if p.travelator then 4 else 0) +
      (if p.elevator then 8 else 0), p.stairFactor, p.liftWait, p.aversion] := by
  rw [← p.allowedCode_eq]
  rfl

theorem ScheduleEntry.words_eq (e : ScheduleEntry) : e.words =
    [if e.enabled then 1 else 0, e.minute, ((List.range 7).map fun d => if e.days.getLsbD d then 2 ^ d else 0).sum,
      e.target.kind.code, e.target.index, e.value.code] := by
  rw [← days_toNat]
  rfl

end Sys2Proof.Machine
end

section
open Sys2Proof Sys2Proof.Machine

/-- Settles O20: reading is the inverse of writing (`Record.ofBytes_eq_some_iff`), then each record's words and ranges. -/
theorem recordsRoundTrip : Obligations.RecordsRoundTrip := by
  refine ⟨fun r range => ⟨Record.ofBytes_bytes range, r.bytes_length⟩, fun table bytes r => ?_,
    fun h => ⟨Record.bytes_of_odd (t := .header) rfl rfl, h.inRange_iff_bounds⟩,
    fun n => ⟨(Record.bytes_of_even (t := .nodes) rfl rfl).trans (congrArg (List.flatMap le16) n.words_eq), n.inRange_iff⟩,
    fun e => ⟨(Record.bytes_of_even (t := .edges) rfl rfl).trans (congrArg (List.flatMap le16) e.words_eq), e.inRange_iff⟩,
    fun edge => ⟨Record.bytes_of_odd (t := .adjacency) rfl rfl, decide_eq_true_iff⟩,
    fun g => ⟨Record.bytes_of_odd (t := .groups) rfl rfl, g.inRange_iff⟩,
    fun m => ⟨(Record.bytes_of_even (t := .members) rfl rfl).trans (congrArg (List.flatMap le16) m.words_eq), m.inRange_iff⟩,
    fun d => ⟨(Record.bytes_of_even (t := .directory) rfl rfl).trans
      (congrArg (List.flatMap le16) d.words_eq), d.inRange_iff⟩,
    fun c => ⟨Record.bytes_of_odd (t := .gates) rfl rfl, rfl⟩,
    fun p => ⟨(Record.bytes_of_odd (t := .profiles) rfl rfl).trans
      (congrArg (fun l => List.flatMap le16 (l ++ [0])) p.words_eq), p.inRange_iff⟩,
    fun s => ⟨Record.bytes_of_odd (t := .screens) rfl rfl, s.inRange_iff⟩,
    fun c => ⟨Record.bytes_of_odd (t := .channels) rfl rfl, c.inRange_iff⟩,
    fun e => ⟨(Record.bytes_of_even (t := .schedule) rfl rfl).trans ?_, e.inRange_iff⟩⟩
  · rw [Record.ofBytes_eq_some_iff]
    cases table <;> exact Iff.rfl
  · refine congrArg (List.flatMap le16) (e.words_eq.trans ?_)
    obtain ⟨_, _, _, _, c | m⟩ := e
    · rfl
    · cases m <;> rfl

end

section
/-! SUPPORT. The records of a TABLE WRITE: what their bytes stand for, and what the tables then hold (R17). -/
namespace Sys2Proof.Machine

theorem TableId.ofCode_code (t : TableId) : TableId.ofCode t.code = some t := by
  cases t <;> rfl

theorem TableId.code_lt (t : TableId) : t.code < 256 := by
  cases t <;> decide

theorem TableId.recordBytes_pos (t : TableId) : 0 < t.recordBytes := by
  cases t <;> decide

theorem Record.flatMap_bytes_length {t : TableId} {records : List Record} (tables : ∀ r ∈ records, r.table = t) :
    (records.flatMap Record.bytes).length = records.length * t.recordBytes := by
  induction records with
  | nil => exact (Nat.zero_mul _).symm
  | cons r rest ih =>
    rw [List.forall_mem_cons] at tables
    rw [List.flatMap_cons, List.length_append, r.bytes_length, tables.1, ih tables.2, List.length_cons, Nat.succ_mul,
      Nat.add_comm]

/-- R17 step 4, R179: the bytes of records in range stand for them. -/
theorem recordsOfBytes_flatMap_bytes {t : TableId} {records : List Record}
    (sound : ∀ r ∈ records, r.table = t ∧ r.inRange = true) :
    recordsOfBytes t records.length (records.flatMap Record.bytes) = some records := by
  refine mapM_eq_some_iff.mpr ?_
  induction records with
  | nil => exact .nil
  | cons r rest ih =>
    rw [List.forall_mem_cons] at sound
    obtain ⟨⟨rfl, range⟩, rest⟩ := sound
    have size := r.bytes_length
    rw [List.length_cons, List.flatMap_cons, chunks, List.take_left' size, List.drop_left' size]
    exact .cons (Record.ofBytes_bytes range) (ih rest)

section

variable {t t' : TableId} {i first : Nat} {records : List Record} {site : SiteStore}

/-- Written records leave the other tables, and the other records of their own, as they read; the header's table has one
record, so that another index of it is none of the part. -/
theorem SiteStore.record_setRecords_of_outside (tables : ∀ r ∈ records, r.table = t) (inside : i < t'.capacity)
    (fits : first + records.length ≤ t.capacity) (outside : t' ≠ t ∨ i < first ∨ first + records.length ≤ i) :
    (site.setRecords first records).record t' i = site.record t' i := by
  induction records generalizing site first with
  | nil => rfl
  | cons r rest ih =>
    rw [List.forall_mem_cons] at tables
    obtain ⟨rfl, tables⟩ := tables
    rw [List.length_cons] at fits outside
    rw [SiteStore.setRecords, ih tables (by omega) (outside.imp_right fun apart => by omega)]
    by_cases same : t' = r.table
    · subst same
      have apart : i ≠ first := by
        rcases outside with differs | before | after
        · exact absurd rfl differs
        · omega
        · omega
      refine site.record_setRecord_of_index (fun header => ?_) apart
      have single : r.table.capacity = 1 := by rw [header]; rfl
      omega
    · exact site.record_setRecord_of_table same

/-- Each written record reads back at its index. -/
theorem SiteStore.Canonical.record_setRecords_of_getElem? (h : site.Canonical) (tables : ∀ r ∈ records, r.table = t)
    (inside : i < t.capacity) (fits : first + records.length ≤ t.capacity) (low : first ≤ i) {r : Record}
    (held : records[i - first]? = some r) : (site.setRecords first records).record t i = r := by
  induction records generalizing site first with
  | nil => cases held
  | cons r' rest ih =>
    rw [List.forall_mem_cons] at tables
    obtain ⟨rfl, tables⟩ := tables
    rw [List.length_cons] at fits
    rw [SiteStore.setRecords]
    rcases low.eq_or_lt with rfl | above
    · rw [Nat.sub_self] at held
      cases held
      rw [SiteStore.record_setRecords_of_outside tables inside (by omega) (by omega)]
      exact h.record_setRecord_self first r
    · refine ih (h.setRecord first r') tables (by omega) above ?_
      rw [← held, show i - first = (i - (first + 1)) + 1 by omega]
      rfl

end

end Sys2Proof.Machine
end

section
open Sys2Proof Sys2Proof.Machine

/-- Settles O22: the bytes stand for the records (`recordsOfBytes_flatMap_bytes`), which the tables then hold. -/
theorem tableWriteReplacesTheRecords : Obligations.TableWriteReplacesTheRecords := by
  intro s t first records started canonical opened sound low high fits
  have tables : ∀ r ∈ records, r.table = t := fun r hr => (sound r hr).1
  have size := Record.flatMap_bytes_length tables
  have count : (records.flatMap Record.bytes).length / t.recordBytes = records.length := by
    rw [size, Nat.mul_div_cancel _ t.recordBytes_pos]
  have first_lt : first < 65536 := low.trans_le (by cases t <;> decide)
  have allowed : RequestKind.tableWrite.lengthAllowed (le8 t.code ++ le16 first ++ records.flatMap Record.bytes) = true := by
    have tableByte : byteAt (le8 t.code ++ le16 first ++ records.flatMap Record.bytes) 0 = t.code := byteAt_le8 t.code_lt _
    have length : (le8 t.code ++ le16 first ++ records.flatMap Record.bytes).length = 3 + records.length * t.recordBytes := by
      rw [List.length_append, size]
      rfl
    rw [RequestKind.lengthAllowed_tableWrite, length, tableByte, t.ofCode_code]
    refine ⟨by omega, fits, fun t' known => ?_⟩
    cases known
    rw [Nat.add_sub_cancel_left, Nat.mul_mod_left]
  have inside : ¬ outsideTable t first records.length = true := by
    rw [outsideTable_iff]
    omega
  have writes : s.hunting.tableWrite t.code first (records.flatMap Record.bytes) =
      accept { s.hunting with site := s.site.setRecords first records } := by
    rw [State.tableWrite_of_open (s := s.hunting) opened, t.ofCode_code]
    simp only [count, inside, recordsOfBytes_flatMap_bytes sound]
    rfl
  rw [exec_tableWrite started t.code_lt first_lt allowed, writes]
  refine ⟨_, rfl, fun t' i index => ⟨?_, ?_⟩, s.site.setRecords_state first records,
    s.site.setRecords_generation first records, s.site.setRecords_drain first records, rfl⟩
  · rintro rfl r above held
    exact canonical.record_setRecords_of_getElem? tables index high above held
  · exact SiteStore.record_setRecords_of_outside tables index high

end

section
/-! SUPPORT. Entering VALID: what it makes of each block, and the entry with the clock UNSET (R22, R102, R112, R113, R136). -/
namespace Sys2Proof.Machine

section

variable (s : State) (cause : SiteCause)

theorem State.liveDefaults_hunting : s.hunting.liveDefaults = s.liveDefaults.hunting := rfl

theorem State.seedChannels_hunting : s.hunting.seedChannels = s.seedChannels.hunting := rfl

theorem State.moveSiteWithNotice_hunting (next : SiteState) :
    s.hunting.moveSiteWithNotice next cause = (s.moveSiteWithNotice next cause).hunting :=
  congrArg (fun k => ({ s.moveSiteWithNotice next cause with link := k } : State))
    (s.link.toHunt_offer (.siteState next s.site.generation cause))

theorem State.entryBase_hunting : s.hunting.entryBase cause = (s.entryBase cause).hunting := by
  have moved := State.moveSiteWithNotice_hunting { s with site := { s.site with generation := s.site.generation + 1 } }
    cause .valid
  unfold State.entryBase
  refine (congrArg (fun u : State => u.liveDefaults.seedChannels.setLate []) moved).trans ?_
  rw [State.liveDefaults_hunting, State.seedChannels_hunting]
  rfl

/-- An entry to VALID and the receiver's return to HUNT do not meet. -/
theorem State.enterValid_hunting : s.hunting.enterValid cause = (s.enterValid cause).hunting := by
  have caughtUp : s.hunting.entryCaughtUp cause = (s.entryCaughtUp cause).hunting := by
    rw [State.entryCaughtUp, State.entryCaughtUp, s.entryBase_hunting cause, s.hunting_schedule]
    split
    · exact State.catchUp_hunting _
    · rfl
  rw [State.enterValid_eq, caughtUp, State.applyTurn_hunting, State.enterValid_eq]
  rfl

/-- R22, R113: the immediate turn and the turn timer, from a state that the catch-up has left. -/
theorem State.startTurnTimer_applyTurn_frame {base u : State} (caughtUp : base.OffersOnly u) (cause : TurnCause) :
    ∃ closures motions gates edits late notices mark count, (u.applyTurn cause).startTurnTimer = { base with
      conditions :=
        { closures := closures, motions := motions, gates := gates, levels := base.publishedNow, edits := edits
          epoch := base.conditions.epoch + 1, turn := .idle, timer := some base.link.parameters.turnPeriod }
      schedule := { base.schedule with late := late }
      link := { base.link with notices := notices, overrunMark := mark, dropped := count } } := by
  obtain ⟨_, _, _, _, _, frame⟩ := caughtUp
  obtain ⟨closures, motions, gates, edits, late, notices, mark, count, turned⟩ := u.applyTurn_frame cause
  have levels : u.publishedNow = base.publishedNow := by
    rw [frame]
    rfl
  refine ⟨closures, motions, gates, edits, late, notices, mark, count, ?_⟩
  rw [turned, levels]
  generalize base.publishedNow = published
  rw [frame]
  rfl

/-- What an entry to VALID writes. -/
theorem State.enterValid_frame : ∃ closures motions gates edits late notices mark count, s.enterValid cause = { s with
    site := { s.site with state := .valid, generation := s.site.generation + 1 }
    conditions :=
      { closures := closures, motions := motions, gates := gates, levels := (s.entryBase cause).publishedNow, edits := edits
        epoch := s.conditions.epoch + 1, turn := .idle, timer := some s.link.parameters.turnPeriod }
    flow := (s.entryBase cause).flow
    schedule := { s.schedule with late := late }
    link := { s.link with notices := notices, overrunMark := mark, dropped := count } } := by
  have parameters := s.entryBase_parameters cause
  have epoch : (s.entryBase cause).conditions.epoch = s.conditions.epoch := rfl
  have base := s.entryBase_frame cause
  obtain ⟨_, _, _, offered⟩ := s.link.offer_frame (.siteState .valid (s.site.generation + 1) cause)
  obtain ⟨closures, motions, gates, edits, late, notices, mark, count, turned⟩ :=
    State.startTurnTimer_applyTurn_frame (s.entryCaughtUp_offersOnly cause) .site
  rw [← s.enterValid_eq cause, parameters, epoch] at turned
  generalize s.entryBase cause = b at base turned ⊢
  rw [offered] at base
  refine ⟨closures, motions, gates, edits, late, notices, mark, count, turned.trans ?_⟩
  generalize b.publishedNow = levels
  generalize b.flow = flow at base ⊢
  rw [base]

/-- R22 step 4, R136: a channel starts at the level that is then published. -/
theorem State.entryBase_level (c : Nat) : ((s.entryBase cause).channel c).level = (s.entryBase cause).published c := by
  rw [(s.entryBase_seeded cause).channels, (s.entryBase_defaults cause).levels]

theorem State.enterValid_site : (s.enterValid cause).site =
    { s.site with state := .valid, generation := s.site.generation + 1 } := by
  obtain ⟨_, _, _, _, _, _, _, _, frame⟩ := s.enterValid_frame cause
  rw [frame]

theorem State.enterValid_flow : (s.enterValid cause).flow = (s.entryBase cause).flow := by
  obtain ⟨_, _, _, _, _, _, _, _, frame⟩ := s.enterValid_frame cause
  rw [frame]

theorem State.enterValid_turn : (s.enterValid cause).conditions.epoch = s.conditions.epoch + 1 ∧
    (s.enterValid cause).conditions.turn = .idle ∧
    (s.enterValid cause).conditions.timer = some s.link.parameters.turnPeriod := by
  obtain ⟨_, _, _, _, _, _, _, _, frame⟩ := s.enterValid_frame cause
  rw [frame]
  exact ⟨rfl, rfl, rfl⟩

theorem State.enterValid_channel (c : Nat) : (s.enterValid cause).channel c = (s.entryBase cause).channel c := by
  rw [State.channel, State.enterValid_flow, State.channel]

theorem State.enterValid_published {c : Nat} (known : c < 64) :
    (s.enterValid cause).published c = ((s.entryBase cause).channel c).level := by
  obtain ⟨_, _, _, _, _, _, _, _, frame⟩ := s.enterValid_frame cause
  rw [State.published, frame]
  dsimp only
  rw [State.publishedNow, Table.get_tabulate, Config.channels, if_pos known]

/-- With nothing pending and nothing LATE, a turn publishes the levels and tells of itself. -/
theorem State.applyTurn_of_nothing {s : State} (edits : s.conditions.edits = []) (late : s.schedule.late = [])
    (cause : TurnCause) : s.applyTurn cause = { s with
      conditions := { s.conditions with levels := s.publishedNow, epoch := s.conditions.epoch + 1, turn := .idle }
      link := s.link.offer (.turnDone (s.conditions.epoch + 1) 0 s.levelChanges cause) } := by
  rw [State.applyTurn_eq, late, State.turned, State.applied, edits]
  generalize s.publishedNow = published
  generalize s.levelChanges = changes
  obtain ⟨_, _, _, _, ⟨_, _, _, _, _, _, _, _⟩, _, _, _, _, _, _, _⟩ := s
  cases edits
  rfl

theorem State.entryBase_levelChanges : (s.entryBase cause).levelChanges = 0 := by
  rw [State.levelChanges, List.length_eq_zero_iff, List.filter_eq_nil_iff]
  intro c _
  simp [s.entryBase_level cause c]

/-- R146: with the clock UNSET there is no catch-up, and the immediate turn has nothing to apply. -/
theorem State.enterValid_of_unset (unset : s.schedule.clockSet = false) : s.enterValid cause = { s.entryBase cause with
    conditions := { (s.entryBase cause).conditions with
      levels := (s.entryBase cause).publishedNow, epoch := s.conditions.epoch + 1, turn := .idle
      timer := some s.link.parameters.turnPeriod }
    link := s.link.offerAll [.siteState .valid (s.site.generation + 1) cause,
      .turnDone (s.conditions.epoch + 1) 0 0 .site] } := by
  have noCatchUp : s.entryCaughtUp cause = s.entryBase cause := if_neg (by rw [unset]; decide)
  have parameters := s.entryBase_parameters cause
  obtain ⟨_, _, _, told⟩ := (s.entryBase cause).link.offer_frame (.turnDone (s.conditions.epoch + 1) 0 0 .site)
  have kept : ((s.entryBase cause).link.offer (.turnDone (s.conditions.epoch + 1) 0 0 .site)).parameters =
      s.link.parameters := by rw [told]; exact parameters
  have epoch : (s.entryBase cause).conditions.epoch = s.conditions.epoch := rfl
  have link : (s.entryBase cause).link = s.link.offer (.siteState .valid (s.site.generation + 1) cause) := rfl
  have turned := State.applyTurn_of_nothing (s.entryBase_edits cause) rfl .site
  rw [s.entryBase_levelChanges cause, epoch] at turned
  rw [State.enterValid_eq, noCatchUp, turned]
  generalize (s.entryBase cause).publishedNow = published
  generalize s.entryBase cause = base at kept link ⊢
  rw [← kept, link]
  rfl

/-- R102: the live tables that an entry with the clock UNSET leaves are the site defaults. -/
theorem State.enterValid_live_of_unset (unset : s.schedule.clockSet = false) :
    (s.enterValid cause).conditions.closures = (s.entryBase cause).conditions.closures ∧
      (s.enterValid cause).conditions.motions = (s.entryBase cause).conditions.motions ∧
      (s.enterValid cause).conditions.gates = (s.entryBase cause).conditions.gates ∧
      (s.enterValid cause).conditions.edits = [] ∧ (s.enterValid cause).schedule.late = [] := by
  have edits := s.entryBase_edits cause
  have late : (s.entryBase cause).schedule.late = [] := rfl
  rw [s.enterValid_of_unset cause unset]
  generalize (s.entryBase cause).publishedNow = published
  generalize s.entryBase cause = base at edits late ⊢
  exact ⟨rfl, rfl, rfl, edits, late⟩

theorem State.enterValid_link_of_unset (unset : s.schedule.clockSet = false) :
    (s.enterValid cause).link = s.link.offerAll [.siteState .valid (s.site.generation + 1) cause,
      .turnDone (s.conditions.epoch + 1) 0 0 .site] :=
  congrArg State.link (s.enterValid_of_unset cause unset)

theorem State.entryBase_channel {c : Nat} (known : c < 64) : (s.entryBase cause).channel c =
    { state := if (s.channelConfig c).enabled then .seeding else .off
      level := if (s.channelConfig c).enabled then .clear else .off
      filter := 0, average := 0, activation := 0, debounce := 0, plateau := 0, missed := 0, change := 0
      lastCount := none } := by
  have config : (s.entryBase cause).channelConfig c = s.channelConfig c := rfl
  rw [(s.entryBase_seeded cause).channels c, config]
  simp only [known, true_and]

end

end Sys2Proof.Machine
end

section
open Sys2Proof Sys2Proof.Machine

/-- Settles O27: the entry to VALID (`State.enterValid_frame`), and its live tables with the clock UNSET. -/
theorem siteCloseEntersValid : Obligations.SiteCloseEntersValid := by
  intro s started idle opened passes
  have replied : exec (.siteClose []) s = .next ((s.enterValid .close).answers 0x87
      (0 :: closeData (some (s.site.generation + 1)) none)) := by
    rw [exec_siteClose started, State.siteClose_of_open (s := s.hunting) idle opened, s.hunting_site, passes,
      s.enterValid_hunting, State.hunting_site, s.enterValid_site]
    exact congrArg Host.Outcome.next (State.replied_ok _ .siteClose _)
  obtain ⟨epoch, turn, timer⟩ := s.enterValid_turn .close
  have seeded := s.entryBase_seeded .close
  refine ⟨_, replied, s.enterValid_site .close, epoch, turn, timer, ?_, ?_, fun c known => ⟨?_, ?_⟩, fun unset => ?_,
    fun none => ?_, ?_⟩
  · refine (congrArg FlowMonitor.timer (s.enterValid_flow .close)).trans (seeded.timer.trans ?_)
    rw [s.entryBase_parameters .close]
  · exact (congrArg FlowMonitor.cycle (s.enterValid_flow .close)).trans seeded.cycle
  · refine (s.enterValid_published .close known).trans ?_
    rw [s.entryBase_channel .close known]
  · exact (s.enterValid_channel .close c).trans (s.entryBase_channel .close known)
  · have defaults := s.entryBase_defaults .close
    obtain ⟨closures, motions, gates, edits, late⟩ := s.enterValid_live_of_unset .close unset
    have closure (e : Nat) : (s.enterValid .close).closure e = (s.entryBase .close).closure e := by
      rw [State.closure, closures, State.closure]
    have motion (e : Nat) : (s.enterValid .close).motion e = (s.entryBase .close).motion e := by
      rw [State.motion, motions, State.motion]
    have gate (g : Nat) : (s.enterValid .close).gate g = (s.entryBase .close).gate g := by
      rw [State.gate, gates, State.gate]
    refine ⟨edits, late, fun e below => ⟨?_, ?_⟩, fun e above => ?_, fun g known => ?_, ?_⟩
    · refine (closure e).trans ((defaults.closures e).trans (if_congr ?_ rfl rfl))
      exact and_iff_right below
    · exact (motion e).trans ((defaults.motions e).trans (if_pos below))
    · exact (closure e).trans ((defaults.closures e).trans (if_neg fun h => above.not_gt h.1))
    · exact (gate g).trans ((defaults.gates g).trans (if_pos known))
    · exact congrArg (fun k => HostLink.answered k 0x87 (0 :: closeData (some (s.site.generation + 1)) none))
        (s.enterValid_link_of_unset .close unset)
  · exact ⟨_, State.enterValid_entersValid .close started.1.1 none, rfl⟩
  · obtain ⟨_, _, _, _, _, _, _, _, frame⟩ := s.enterValid_frame .close
    rw [frame]
    rfl

end

section
/-! SUPPORT. What a load does: the checks of its header, the records in the order of the image, and its ends (R160 to R162,
R166). -/
namespace Sys2Proof.Machine

/-! ### HEADER_READ (R160) -/

section

variable {bytes : List Byte} {address : Nat}

theorem headerFailure_H1 (bad : ¬ (byteAt bytes 0 = 0x48 ∧ byteAt bytes 1 = 0x50)) : headerFailure bytes address = some .H1 :=
  if_pos (by simpa [imp_iff_not_or] using bad)

section

variable (marker : byteAt bytes 0 = 0x48 ∧ byteAt bytes 1 = 0x50)
include marker

/-- Past H1 the checks go on with the format. -/
theorem headerFailure_of_marker : headerFailure bytes address =
    if byteAt bytes 2 ≠ 1 then some .H2
    else if !(headerOf bytes).inRange then some .H3
    else if longAt bytes 24 ≠ (headerOf bytes).imageLength then some .H4
    else if Config.flashBytes < address + longAt bytes 24 then some .H5
    else none :=
  if_neg (by simpa using marker)

theorem headerFailure_H2 (bad : ¬ byteAt bytes 2 = 1) : headerFailure bytes address = some .H2 :=
  (headerFailure_of_marker marker).trans (if_pos bad)

section

variable (format : byteAt bytes 2 = 1)
include format

theorem headerFailure_H3 (bad : ¬ (headerOf bytes).inRange = true) : headerFailure bytes address = some .H3 :=
  (headerFailure_of_marker marker).trans ((if_neg (not_not.mpr format)).trans (if_pos (by simpa using bad)))

/-- Past H3 the checks go on with the length. -/
theorem headerFailure_of_inRange (range : (headerOf bytes).inRange = true) : headerFailure bytes address =
    if longAt bytes 24 ≠ (headerOf bytes).imageLength then some .H4
    else if Config.flashBytes < address + longAt bytes 24 then some .H5
    else none :=
  (headerFailure_of_marker marker).trans ((if_neg (not_not.mpr format)).trans (if_neg (by simpa using range)))

variable (range : (headerOf bytes).inRange = true)
include range

theorem headerFailure_H4 (bad : ¬ longAt bytes 24 = (headerOf bytes).imageLength) :
    headerFailure bytes address = some .H4 :=
  (headerFailure_of_inRange marker format range).trans (if_pos bad)

variable (length : longAt bytes 24 = (headerOf bytes).imageLength)
include length

theorem headerFailure_H5 (bad : ¬ address + longAt bytes 24 ≤ 16777216) : headerFailure bytes address = some .H5 :=
  (headerFailure_of_inRange marker format range).trans
    ((if_neg (not_not.mpr length)).trans (if_pos (Nat.lt_of_not_le bad)))

theorem headerFailure_none (fits : address + longAt bytes 24 ≤ 16777216) : headerFailure bytes address = none :=
  (headerFailure_of_inRange marker format range).trans
    ((if_neg (not_not.mpr length)).trans (if_neg (Nat.not_lt.mpr fits)))

end
end

variable {s : State}

theorem exec_headerRead (running : s.Running) (bytes : List Byte) :
    exec (.headerRead bytes) s = .next (s.headerRead bytes) :=
  congrArg Host.Outcome.next (State.event_of_running running _)

theorem State.headerRead_of_readHeader (stage : s.transfer.state = .readHeader) (place : s.transfer.address = some address)
    (size : bytes.length = 32) : s.headerRead bytes =
      match headerFailure bytes address with
      | some code => (s.noteLength bytes code).failLoad (.badHeader code)
      | none => s.acceptHeader bytes := by
  rw [State.headerRead, if_pos (by simp [stage, size, Config.headerBytes]), place]
  rfl

end

/-! ### The records of the image, in their order (R161) -/

/-- The tables of the image, each with the number of its records. -/
def Header.counts (h : Header) : List (TableId × Nat) := TableId.imageOrder.map fun t => (t, h.recordsOf t)

/-- The first record of tables with the numbers of their records. -/
def firstOfCounts (tables : List (TableId × Nat)) : Option (TableId × Nat) :=
  (tables.find? fun x => 0 < x.2).map fun x => (x.1, 0)

theorem Header.firstRecord_eq (h : Header) (tables : List TableId) :
    h.firstRecord tables = firstOfCounts (tables.map fun t => (t, h.recordsOf t)) := by
  induction tables with
  | nil => rfl
  | cons t rest ih =>
    rw [Header.firstRecord, ih, firstOfCounts, firstOfCounts, List.map_cons, List.find?_cons]
    by_cases some : 0 < h.recordsOf t
    · simp [some]
    · simp [some]

theorem TableId.dropWhile_imageOrder {t : TableId} (imaged : t ≠ .header) :
    (TableId.imageOrder.dropWhile fun u => u ≠ t) = t :: t.after := by
  cases t
  case header => exact absurd rfl imaged
  all_goals rfl

theorem Header.counts_dropWhile (h : Header) (t : TableId) : (h.counts.dropWhile fun x => x.1 ≠ t) =
    (TableId.imageOrder.dropWhile fun u => u ≠ t).map fun u => (u, h.recordsOf u) :=
  List.dropWhile_map

/-- The record after one of a table, where the tables from it on have these numbers of records. -/
def nextOfCounts (t : TableId) (i : Nat) : List (TableId × Nat) → Option (TableId × Nat)
  | [] => none
  | (_, count) :: rest => if i + 1 < count then some (t, i + 1) else firstOfCounts rest

/-- R161: the next record, in its table or the first one of the next table that has one. -/
theorem Header.nextRecord_eq (h : Header) {t : TableId} (imaged : t ≠ .header) (i : Nat) :
    h.nextRecord t i = nextOfCounts t i (h.counts.dropWhile fun x => x.1 ≠ t) := by
  rw [h.counts_dropWhile, TableId.dropWhile_imageOrder imaged, Header.nextRecord, h.firstRecord_eq, List.map_cons,
    nextOfCounts]

/-- No record of the image follows a header. -/
theorem Header.nextRecord_of_header (h : Header) (i : Nat) : h.nextRecord .header i = none :=
  if_neg (Nat.not_lt.mpr (Nat.le_add_left 1 i))

/-- Only a header's own record writes the header. -/
theorem SiteStore.setRecord_header (site : SiteStore) (i : Nat) {r : Record} (counted : r.table ≠ .header) :
    (site.setRecord i r).header = site.header := by
  cases r
  case header => exact absurd rfl counted
  all_goals rfl

/-- R161: the record after a written one, by the counts of the site before the write. -/
theorem SiteStore.nextRecord_setRecord (site : SiteStore) (i : Nat) (r : Record) :
    (site.setRecord i r).header.nextRecord r.table i =
      nextOfCounts r.table i (site.header.counts.dropWhile fun x => x.1 ≠ r.table) := by
  by_cases imaged : r.table = .header
  · rw [imaged, Header.nextRecord_of_header, Header.counts_dropWhile]
    rfl
  · rw [site.setRecord_header i imaged, Header.nextRecord_eq _ imaged]

theorem nextOfCounts_of_more (h : Header) {t : TableId} (imaged : t ≠ .header) {i : Nat} (more : i + 1 < h.recordsOf t) :
    nextOfCounts t i (h.counts.dropWhile fun x => x.1 ≠ t) = some (t, i + 1) :=
  (h.nextRecord_eq imaged i).symm.trans (if_pos more)

/-- R102: the levels published on entry to VALID, by the channels' own records. -/
theorem State.enterValid_levels (s : State) (cause : SiteCause) {c : Nat} (known : c < 64) :
    (s.enterValid cause).published c =
      if ((s.enterValid cause).channelConfig c).enabled then .clear else .off := by
  have config : (s.enterValid cause).channelConfig c = s.channelConfig c := by
    rw [State.channelConfig, s.enterValid_site]
    rfl
  rw [s.enterValid_published cause known, s.entryBase_channel cause known, config]

/-! ### RECORD_READ (R161, R162) -/

/-- R161: the last record of the image written. -/
def State.withLast (s : State) (i : Nat) (r : Record) (counted : TransferUnit) : State :=
  { s with site := s.site.setRecord i r, transfer := { counted with position := none, state := .validate } }

section

variable {s : State} {table : TableId} {i : Nat} {bytes : List Byte}

theorem exec_recordRead (running : s.Running) (bytes : List Byte) :
    exec (.recordRead bytes) s = .next (s.recordRead bytes) :=
  congrArg Host.Outcome.next (State.event_of_running running _)

/-- R161: the transfer with a record's bytes in its running check, their sum taken at once. -/
def TransferUnit.withSum (t : TransferUnit) (bytes : List Byte) : TransferUnit :=
  { t with check := t.check + BitVec.ofNat 16 (bytes.map BitVec.toNat).sum, offset := t.offset + bytes.length }

theorem TransferUnit.counted_eq (t : TransferUnit) (bytes : List Byte) : t.counted bytes = t.withSum bytes := by
  rw [TransferUnit.counted, addToCheck_eq, TransferUnit.withSum]

theorem State.recordRead_of_readTables (stage : s.transfer.state = .readTables)
    (place : s.transfer.position = some (table, i)) (size : bytes.length = table.recordBytes) :
    s.recordRead bytes = s.readRecord table i bytes := by
  simp only [State.recordRead, stage, place, size, if_true]

theorem State.readRecord_of_none (unread : Record.ofBytes table bytes = none) : s.readRecord table i bytes =
    State.loadFailed { s with transfer := s.transfer.withSum bytes } (.badRecord table i) := by
  rw [State.readRecord, unread, TransferUnit.counted_eq]
  rfl

variable {r : Record} (read : Record.ofBytes table bytes = some r)
include read

theorem State.readRecord_of_next {position : TableId × Nat}
    (next : nextOfCounts table i (s.site.header.counts.dropWhile fun x => x.1 ≠ table) = some position) :
    s.readRecord table i bytes =
      { s with site := s.site.setRecord i r, transfer := { s.transfer.withSum bytes with position := some position } } := by
  obtain ⟨rfl, _⟩ := Record.ofBytes_eq_some_iff.mp read
  rw [← s.site.nextRecord_setRecord i r] at next
  simp only [State.readRecord, TransferUnit.counted_eq, read, State.setTransfer, next]

theorem State.readRecord_of_last
    (last : nextOfCounts table i (s.site.header.counts.dropWhile fun x => x.1 ≠ table) = none) :
    s.readRecord table i bytes = (s.withLast i r (s.transfer.withSum bytes)).finishTables := by
  obtain ⟨rfl, _⟩ := Record.ofBytes_eq_some_iff.mp read
  rw [← s.site.nextRecord_setRecord i r] at last
  simp only [State.readRecord, TransferUnit.counted_eq, read, State.setTransfer, State.withLast, last]

end

section

variable {s : State}

theorem State.finishTables_mismatch (differs : s.transfer.check ≠ s.transfer.expected) :
    s.finishTables = s.loadFailed (.checkMismatch s.transfer.check s.transfer.expected) :=
  if_neg differs

variable (agrees : s.transfer.check = s.transfer.expected)
include agrees

theorem State.finishTables_invalid {f : Failure} (fails : s.site.firstFailure = some f) :
    s.finishTables = s.loadFailed (.invalid f) := by
  rw [State.finishTables, if_pos agrees, State.validateLoad, fails]
  rfl

theorem State.finishTables_valid (passes : s.site.firstFailure = none) : s.finishTables =
    (s.enterValid .load).endTransfer s.transfer .load .valid (some (s.site.generation + 1)) := by
  rw [State.finishTables, if_pos agrees, State.validateLoad, passes]
  dsimp only
  rw [s.enterValid_site]

/-- R22, R162, R166: what a load that ends VALID leaves. -/
theorem State.finishTables_entered (passes : s.site.firstFailure = none) : ∃ t, s.finishTables = t ∧
    t.site = { s.site with state := .valid, generation := s.site.generation + 1 } ∧
    t.conditions.epoch = s.conditions.epoch + 1 ∧ t.conditions.turn = .idle ∧
    t.conditions.timer = some s.link.parameters.turnPeriod ∧ t.flow.timer = some s.link.parameters.sampleInterval ∧
    t.flow.cycle = none ∧ (∀ c, c < 64 → t.published c = if (t.channelConfig c).enabled then .clear else .off) ∧
    t.transfer.state = .idle ∧ t.transfer.operation = none ∧ t.transfer.last = some (.load, .valid) := by
  have site := s.enterValid_site .load
  obtain ⟨epoch, turn, timer⟩ := s.enterValid_turn .load
  have samples : (s.enterValid .load).flow.timer = some s.link.parameters.sampleInterval := by
    rw [s.enterValid_flow, (s.entryBase_seeded .load).timer, s.entryBase_parameters]
  have cycle : (s.enterValid .load).flow.cycle = none := by
    rw [s.enterValid_flow, (s.entryBase_seeded .load).cycle]
  have levels : ∀ c, c < 64 → (s.enterValid .load).published c =
      if ((s.enterValid .load).channelConfig c).enabled then .clear else .off := fun c known => s.enterValid_levels .load known
  refine ⟨_, State.finishTables_valid agrees passes, ?_⟩
  generalize s.enterValid .load = u at site epoch turn timer samples cycle levels ⊢
  exact ⟨site, epoch, turn, timer, samples, cycle, levels, rfl, rfl, rfl⟩

/-- R22, R162, R166: the sequence of entering VALID, and TRANSFER DONE last. -/
theorem State.finishTables_sequence (passes : s.site.firstFailure = none) (running : s.Running) (idle : ¬ s.Searching) :
    ∃ u, s.EntersValid u .load ∧ s.finishTables = { u with
      transfer := { state := .idle, operation := none, address := none, imageLength := none, check := s.transfer.check
                    expected := 0, offset := 0, position := none, sent := [], last := some (.load, .valid) }
      link := u.link.offer (.transferDone .load .valid (s.transfer.address.getD 0) s.transfer.imageLength
        (some (s.site.generation + 1))) } := by
  have enters := State.enterValid_entersValid .load running idle
  have done := State.finishTables_valid agrees passes
  generalize s.enterValid .load = u at enters done
  exact ⟨u, enters, done⟩

end

end Sys2Proof.Machine
end

section
open Sys2Proof Sys2Proof.Machine

/-- Settles O54: H1 to H5 in their order, and the ends of RECORD_READ by what the record stands for and what follows it. -/
theorem loadsJudgeTheHeaderAndTheRecords : Obligations.LoadsJudgeTheHeaderAndTheRecords := by
  refine ⟨fun s bytes address running stage load place size => ?_, fun s bytes table i running stage load place size => ?_⟩
  · have reads := State.headerRead_of_readHeader stage place size
    have length := (headerOf bytes).imageLength_eq
    dsimp only
    rw [exec_headerRead running]
    refine ⟨fun bad => ?_, fun marker bad => ?_, fun marker format bad => ?_, fun marker format range bad => ?_,
      fun marker format range right bad => ?_, fun marker format range right fits => ?_⟩
    · rw [reads, headerFailure_H1 bad]
      rfl
    · rw [reads, headerFailure_H2 marker bad]
      rfl
    · rw [reads, headerFailure_H3 marker format bad]
      rfl
    · rw [reads, headerFailure_H4 marker format range (fun right => bad (right.trans length))]
      rfl
    · rw [reads, headerFailure_H5 marker format range (right.trans length.symm) bad, ← right]
      rfl
    · rw [reads, headerFailure_none marker format range (right.trans length.symm) fits, ← right]
      refine ⟨_, rfl, Header.firstRecord_eq _ _, ?_⟩
      dsimp only [State.acceptHeader]
      rw [place]
      rfl
  · dsimp only
    rw [exec_recordRead running, State.recordRead_of_readTables stage place size]
    refine ⟨fun unread => congrArg Host.Outcome.next (State.readRecord_of_none unread), fun r read =>
      ⟨fun position next => congrArg Host.Outcome.next (State.readRecord_of_next read next), fun more imaged =>
        congrArg Host.Outcome.next (State.readRecord_of_next read (nextOfCounts_of_more _ imaged more)), fun last => ?_⟩⟩
    have generation : (s.withLast i r (s.transfer.withSum bytes)).site.generation = s.site.generation :=
      s.site.setRecord_generation i r
    rw [State.readRecord_of_last read last]
    refine ⟨fun differs => ?_, fun f agrees fails => ?_, fun agrees passes => ?_, fun agrees passes idle => ?_⟩
    · exact congrArg Host.Outcome.next
        (State.finishTables_mismatch (s := s.withLast i r (s.transfer.withSum bytes)) differs)
    · exact congrArg Host.Outcome.next
        (State.finishTables_invalid (s := s.withLast i r (s.transfer.withSum bytes)) agrees fails)
    · obtain ⟨t, enters, facts⟩ :=
        State.finishTables_entered (s := s.withLast i r (s.transfer.withSum bytes)) agrees passes
      rw [generation] at facts
      exact ⟨t, congrArg Host.Outcome.next enters, facts⟩
    · obtain ⟨u, enters, done⟩ :=
        State.finishTables_sequence (s := s.withLast i r (s.transfer.withSum bytes)) agrees passes running idle
      rw [generation] at done
      exact ⟨u, enters, congrArg Host.Outcome.next done⟩

end

section
/-! SUPPORT. The pricing of a traversal: the class the walker meets, what is usable, and the base times (R25 to R33). -/
namespace Sys2Proof.Machine

/-- R26: a moving edge runs. -/
def MotionRuns (mode : Mode) (motion : Option Motion) : Prop :=
  mode = .normal ∧ (motion = some .runAB ∨ motion = some .runBA)

section

variable {mode : Mode} {motion : Option Motion}

/-- R26: the class the walker meets, by the edge's own class and whether it runs. -/
theorem resolvedClass_eq (cls : EdgeClass) (runs : Decidable (MotionRuns mode motion)) : resolvedClass mode cls motion =
    if MotionRuns mode motion then cls
    else match cls with
      | .escalator => .stairs
      | .travelator => .walk
      | cls => cls := by
  split
  next running =>
    obtain ⟨rfl, moves⟩ := running
    exact resolvedClass_of_running cls moves
  next still => exact resolvedClass_of_not_running cls still

theorem resolvedClass_eq_walk_iff {cls : EdgeClass} : resolvedClass mode cls motion = .walk ↔
    cls = .walk ∨ (cls = .travelator ∧ ¬ MotionRuns mode motion) := by
  rw [resolvedClass_eq cls (Classical.dec _)]
  by_cases running : MotionRuns mode motion
  · simp [running]
  · cases cls <;> simp [running]

theorem resolvedClass_eq_door_iff {cls : EdgeClass} : resolvedClass mode cls motion = .door ↔ cls = .door := by
  rw [resolvedClass_eq cls (Classical.dec _)]
  by_cases running : MotionRuns mode motion
  · simp [running]
  · cases cls <;> simp [running]

theorem resolvedClass_eq_stairs_iff {cls : EdgeClass} : resolvedClass mode cls motion = .stairs ↔
    cls = .stairs ∨ (cls = .escalator ∧ ¬ MotionRuns mode motion) := by
  rw [resolvedClass_eq cls (Classical.dec _)]
  by_cases running : MotionRuns mode motion
  · simp [running]
  · cases cls <;> simp [running]

theorem resolvedClass_eq_escalator_iff {cls : EdgeClass} : resolvedClass mode cls motion = .escalator ↔
    cls = .escalator ∧ MotionRuns mode motion := by
  rw [resolvedClass_eq cls (Classical.dec _)]
  by_cases running : MotionRuns mode motion
  · simp [running]
  · cases cls <;> simp [running]

theorem resolvedClass_eq_travelator_iff {cls : EdgeClass} : resolvedClass mode cls motion = .travelator ↔
    cls = .travelator ∧ MotionRuns mode motion := by
  rw [resolvedClass_eq cls (Classical.dec _)]
  by_cases running : MotionRuns mode motion
  · simp [running]
  · cases cls <;> simp [running]

theorem resolvedClass_eq_elevator_iff {cls : EdgeClass} : resolvedClass mode cls motion = .elevator ↔ cls = .elevator := by
  rw [resolvedClass_eq cls (Classical.dec _)]
  by_cases running : MotionRuns mode motion
  · simp [running]
  · cases cls <;> simp [running]

end

/-- R8, R28: the classes a profile does not allow. -/
theorem Profile.allows_eq_false_iff (p : Profile) (cls : EdgeClass) : p.allows cls = false ↔
    (cls = .stairs ∧ p.stairs = false) ∨ (cls = .escalator ∧ p.escalator = false) ∨
      (cls = .travelator ∧ p.travelator = false) ∨ (cls = .elevator ∧ p.elevator = false) := by
  cases cls <;> simp [Profile.allows]

theorem runningAgainst_iff (ab : Bool) (motion : Option Motion) : runningAgainst ab motion = true ↔
    (ab = false ∧ motion = some .runAB) ∨ (ab = true ∧ motion = some .runBA) := by
  rcases motion with _ | _ | _ | _ <;> simp [runningAgainst]

/-- R27, R28: what makes a traversal UNUSABLE, by the class the walker meets. -/
theorem usable_eq_false_iff {mode : Mode} {p : Profile} {edge : Edge} {live : EdgeConditions} {ab : Bool} {cls : EdgeClass}
    (resolved : resolvedClass mode edge.cls live.motion = cls) : usable mode p edge live ab = false ↔
      live.closure = .closed ∨ (mode = .normal ∧ live.gateClosed = true) ∨ (mode = .egress ∧ edge.cls = .elevator) ∨
        p.allows cls = false ∨ ((cls = .escalator ∨ cls = .travelator) ∧ runningAgainst ab live.motion = true) ∨
        ((cls = .escalator ∨ cls = .elevator) ∧ edge.rideCode = 0) := by
  have closed : ¬ live.closure = .opened ↔ live.closure = .closed := by cases live.closure <;> simp
  subst resolved
  simp only [usable, Bool.and_eq_false_iff, Bool.not_eq_false', decide_eq_false_iff_not, Bool.and_eq_true, Bool.or_eq_true,
    decide_eq_true_eq, closed, or_assoc]

/-- R33: the clamp, its two bounds in either order. -/
theorem clampCost_eq (time : Nat) : clampCost time = max 1 (min time 16383) := by
  unfold clampCost
  omega

theorem price_eq_some_iff {mode : Mode} {p : Profile} {h : Header} {edge : Edge} {live : EdgeConditions} {ab : Bool}
    {cost : Nat} : price mode p h edge live ab = some cost ↔ usable mode p edge live ab = true ∧
      clampCost (ceilDiv (baseTime p edge (resolvedClass mode edge.cls live.motion) *
        effectiveFactor (levelFactor h live.level) p.aversion) 16) = cost := by
  unfold price
  split <;> simp_all

end Sys2Proof.Machine
end

section
open Sys2Proof Sys2Proof.Machine

/-- Settles O47: each clause by the class the walker meets (`resolvedClass_eq` and its cases). -/
theorem traversalsArePricedByTheRules : Obligations.TraversalsArePricedByTheRules := by
  refine ⟨fun s ctx e ab => ⟨s.edgeConditions e, rfl, rfl, ?_, fun none => ?_, fun channel known => ?_, rfl⟩,
    fun s u => ⟨?_, fun i known => ?_⟩, fun edge u apart => ⟨fun start => ?_, fun finish => ?_⟩,
    fun mode p h edge live ab profile _ _ => ⟨?_, fun cost priced => ?_⟩⟩
  · dsimp only [State.edgeConditions]
    cases (s.edge e).gate <;> simp
  · exact congrArg (Option.map s.published) none
  · exact congrArg (Option.map s.published) known
  · simp [State.edgesOf]
  · simp [State.edgesOf, known]
  · exact if_pos start.symm
  · exact if_neg (finish ▸ apart)
  · rw [price_eq_none_iff, usable_eq_false_iff rfl, Profile.allows_eq_false_iff, runningAgainst_iff,
      resolvedClass_eq_stairs_iff, resolvedClass_eq_escalator_iff, resolvedClass_eq_travelator_iff,
      resolvedClass_eq_elevator_iff]
    simp only [or_assoc]
    exact Iff.rfl
  · obtain ⟨_, rfl⟩ := price_eq_some_iff.mp priced
    obtain ⟨pace, _, factor, _⟩ := p.inRange_iff.mp profile
    refine ⟨clampCost_pos _, clampCost_le _, _, _, ceilDiv_isCeil _ (by decide), clampCost_eq _, fun walk => ?_,
      fun door => ⟨ceilDiv (100 * edge.length) p.pace, ceilDiv_isCeil _ (by omega), ?_⟩, fun stairs => ?_,
      fun travelator => ?_, fun escalator => ?_, fun elevator => ?_⟩
    · rw [resolvedClass_eq_walk_iff.mpr walk]
      exact ceilDiv_isCeil _ (by omega)
    · rw [resolvedClass_eq_door_iff.mpr door]
      rfl
    · rw [resolvedClass_eq_stairs_iff.mpr stairs]
      exact ceilDiv_isCeil _ (by omega)
    · rw [resolvedClass_eq_travelator_iff.mpr travelator]
      exact ceilDiv_isCeil _ (by omega)
    · rw [resolvedClass_eq_escalator_iff.mpr escalator]
      rfl
    · rw [resolvedClass_eq_elevator_iff.mpr elevator]
      rfl

end

section
/-! SUPPORT. Validation: which failure is the first one, and what each check asks (R20, R123). -/
namespace Sys2Proof.Machine

/-! ### The first failure -/

theorem findSome?_range_eq_some_iff {β : Type} {f : Nat → Option β} {n : Nat} {b : β} :
    (List.range n).findSome? f = some b ↔ ∃ i, i < n ∧ f i = some b ∧ ∀ j, j < i → f j = none := by
  rw [List.findSome?_eq_some_iff]
  constructor
  · rintro ⟨before, i, after, split, found, none⟩
    have position : before.length < n := by
      have length := congrArg List.length split
      rw [List.length_range, List.length_append, List.length_cons] at length
      omega
    have here (j : Nat) (hj : j < n) : (before ++ i :: after)[j]? = some j := by
      rw [← split, List.getElem?_range hj]
    have i_eq : i = before.length := by simpa using here before.length position
    refine ⟨i, by omega, found, fun j hj => none j ?_⟩
    refine List.mem_of_getElem? (i := j) ?_
    rw [← List.getElem?_append_left (by omega), here j (by omega)]
  · rintro ⟨i, hi, found, none⟩
    obtain ⟨k, rfl⟩ := Nat.exists_eq_add_of_lt hi
    refine ⟨List.range i, i, (List.range k).map (i + 1 + ·), ?_, found, fun j hj => none j (List.mem_range.mp hj)⟩
    rw [show i + k + 1 = i + 1 + k by omega, List.range_add, List.range_succ, List.append_assoc, List.singleton_append]

theorem findSome?_cons_of_ne {α β : Type} {f : α → Option β} {a : α} {rest : List α} {b : β}
    (h : (a :: rest).findSome? f = some b) (ne : f a ≠ some b) : f a = none ∧ rest.findSome? f = some b := by
  rw [List.findSome?_cons] at h
  cases found : f a with
  | none => exact ⟨rfl, by rwa [found] at h⟩
  | some c =>
    rw [found] at h
    exact absurd (found.trans h) ne

section

variable (s : SiteStore)

/-- Every check of a table's records passes. -/
def SiteStore.RecordsPass (t : TableId) : Prop :=
  ∀ i, i < s.header.recordsOf t → ∀ check ∈ t.checks, check.2 s i = true

variable {s}

theorem SiteStore.recordFailure_eq_none_iff {t : TableId} {i : Nat} :
    s.recordFailure t i = none ↔ ∀ check ∈ t.checks, check.2 s i = true := by
  simp [SiteStore.recordFailure]

theorem SiteStore.recordFailure_eq_some_iff {t : TableId} {i : Nat} {f : Failure} : s.recordFailure t i = some f ↔
    f.table = t ∧ f.index = i ∧ ∃ before check after, t.checks = before ++ (f.code, check) :: after ∧
      check s i = false ∧ ∀ c ∈ before, c.2 s i = true := by
  rw [SiteStore.recordFailure, Option.map_eq_some_iff]
  constructor
  · rintro ⟨⟨code, check⟩, found, rfl⟩
    obtain ⟨fails, before, after, split, pass⟩ := List.find?_eq_some_iff_append.mp found
    exact ⟨rfl, rfl, before, check, after, split, by simpa using fails, fun c hc => by simpa using pass c hc⟩
  · rintro ⟨rfl, rfl, before, check, after, split, fails, pass⟩
    refine ⟨(f.code, check), List.find?_eq_some_iff_append.mpr ⟨by simpa using fails, before, after, split, fun c hc => ?_⟩, rfl⟩
    simpa using pass c hc

theorem SiteStore.recordFailures_eq_none_iff {t : TableId} :
    (List.range (s.header.recordsOf t)).findSome? (s.recordFailure t) = none ↔ s.RecordsPass t := by
  simp only [List.findSome?_eq_none_iff, List.mem_range, SiteStore.recordFailure_eq_none_iff, SiteStore.RecordsPass]

/-- The failure of G3. -/
def SiteStore.exitFailure (s : SiteStore) : Failure := { table := .groups, index := s.header.exitGroup, code := .G3 }

theorem SiteStore.tableFailure_of_pass {t : TableId} (pass : s.RecordsPass t) : s.tableFailure t =
    if t = .groups ∧ s.header.groupCount ≤ s.header.exitGroup then some s.exitFailure else none := by
  rw [SiteStore.tableFailure, SiteStore.recordFailures_eq_none_iff.mpr pass]
  simp [checkG3, SiteStore.exitFailure]

theorem SiteStore.tableFailure_of_failure {t : TableId} {f : Failure}
    (fails : (List.range (s.header.recordsOf t)).findSome? (s.recordFailure t) = some f) : s.tableFailure t = some f := by
  rw [SiteStore.tableFailure, fails]

theorem SiteStore.tableFailure_eq_none_iff {t : TableId} : s.tableFailure t = none ↔
    s.RecordsPass t ∧ (t = .groups → s.header.exitGroup < s.header.groupCount) := by
  by_cases pass : s.RecordsPass t
  · rw [SiteStore.tableFailure_of_pass pass]
    simp [pass]
  · obtain ⟨f, fails⟩ := Option.ne_none_iff_exists'.mp (mt SiteStore.recordFailures_eq_none_iff.mp pass)
    simp [SiteStore.tableFailure_of_failure fails, pass]

/-- A table fails at one of its records, the checks before it in the table's order passing; or at G3 past them all. -/
theorem SiteStore.tableFailure_eq_some_iff {t : TableId} {f : Failure} : s.tableFailure t = some f ↔
    (∃ i, i < s.header.recordsOf t ∧ s.recordFailure t i = some f ∧
      ∀ j, j < i → ∀ check ∈ t.checks, check.2 s j = true) ∨
    (s.RecordsPass t ∧ t = .groups ∧ s.header.groupCount ≤ s.header.exitGroup ∧ f = s.exitFailure) := by
  have records : (∃ i, i < s.header.recordsOf t ∧ s.recordFailure t i = some f ∧
      ∀ j, j < i → ∀ check ∈ t.checks, check.2 s j = true) ↔
      (List.range (s.header.recordsOf t)).findSome? (s.recordFailure t) = some f := by
    simp only [findSome?_range_eq_some_iff, SiteStore.recordFailure_eq_none_iff]
  rw [records]
  by_cases pass : s.RecordsPass t
  · rw [SiteStore.tableFailure_of_pass pass, SiteStore.recordFailures_eq_none_iff.mpr pass]
    simp [pass, eq_comm, and_assoc]
  · obtain ⟨g, fails⟩ := Option.ne_none_iff_exists'.mp (mt SiteStore.recordFailures_eq_none_iff.mp pass)
    simp [SiteStore.tableFailure_of_failure fails, fails, pass]

theorem TableId.code_ne_G3 (t : TableId) : ∀ code ∈ t.checks.map Prod.fst, code ≠ .G3 := by
  cases t <;> decide

/-- G3 is no check of a record. -/
theorem SiteStore.code_of_recordFailure {t : TableId} {i : Nat} {f : Failure} (fails : s.recordFailure t i = some f) :
    f.code ≠ .G3 := by
  obtain ⟨_, _, before, check, after, split, _⟩ := SiteStore.recordFailure_eq_some_iff.mp fails
  refine t.code_ne_G3 f.code (List.mem_map.mpr ⟨(f.code, check), ?_, rfl⟩)
  rw [split]
  exact List.mem_append_right _ List.mem_cons_self

theorem SiteStore.tableFailure_of_G3 {t : TableId} {f : Failure} (fails : s.tableFailure t = some f) (code : f.code = .G3) :
    s.RecordsPass t ∧ t = .groups ∧ s.header.groupCount ≤ s.header.exitGroup ∧ f = s.exitFailure := by
  rcases SiteStore.tableFailure_eq_some_iff.mp fails with ⟨i, _, record, _⟩ | exit
  · exact absurd code (SiteStore.code_of_recordFailure record)
  · exact exit

/-- R20: every check passes. -/
theorem SiteStore.firstFailure_eq_none_iff : s.firstFailure = none ↔
    (∀ t ∈ TableId.imageOrder, s.RecordsPass t) ∧ s.header.exitGroup < s.header.groupCount := by
  rw [SiteStore.firstFailure, List.findSome?_eq_none_iff]
  simp only [SiteStore.tableFailure_eq_none_iff]
  constructor
  · intro pass
    exact ⟨fun t ht => (pass t ht).1, (pass .groups (by decide)).2 rfl⟩
  · rintro ⟨pass, exit⟩ t ht
    exact ⟨pass t ht, fun _ => exit⟩

/-- R20: the first failing check of a record: all before it, in the three orders, pass. -/
theorem SiteStore.firstFailure_of_record {f : Failure} (fails : s.firstFailure = some f) (code : f.code ≠ .G3) :
    ∃ before after tablesBefore tablesAfter, TableId.imageOrder = tablesBefore ++ f.table :: tablesAfter ∧
      ∃ check, f.table.checks = before ++ (f.code, check) :: after ∧ f.index < s.header.recordsOf f.table ∧
        check s f.index = false ∧ (∀ c ∈ before, c.2 s f.index = true) ∧
        (∀ i, i < f.index → ∀ c ∈ f.table.checks, c.2 s i = true) ∧
        (∀ t ∈ tablesBefore, s.RecordsPass t) ∧
        (TableId.groups ∈ tablesBefore → s.header.exitGroup < s.header.groupCount) := by
  obtain ⟨tablesBefore, t, tablesAfter, order, table, none⟩ := List.findSome?_eq_some_iff.mp fails
  rcases SiteStore.tableFailure_eq_some_iff.mp table with ⟨i, hi, record, pass⟩ | ⟨_, _, _, rfl⟩
  · obtain ⟨rfl, rfl, before, check, after, split, fails, passes⟩ := SiteStore.recordFailure_eq_some_iff.mp record
    exact ⟨before, after, tablesBefore, tablesAfter, order, check, split, hi, fails, passes, pass,
      fun t ht => (SiteStore.tableFailure_eq_none_iff.mp (none t ht)).1,
      fun ht => (SiteStore.tableFailure_eq_none_iff.mp (none .groups ht)).2 rfl⟩
  · exact absurd rfl code

theorem SiteStore.firstFailure_of_G3 {f : Failure} (fails : s.firstFailure = some f) (code : f.code = .G3) :
    f = s.exitFailure := by
  obtain ⟨_, _, _, _, table, _⟩ := List.findSome?_eq_some_iff.mp fails
  obtain ⟨_, _, _, same⟩ := SiteStore.tableFailure_of_G3 table code
  exact same

/-- R20: G3 stands after the group records. -/
theorem SiteStore.firstFailure_eq_exitFailure_iff : s.firstFailure = some s.exitFailure ↔
    (∀ t ∈ [TableId.nodes, .edges, .adjacency, .groups], s.RecordsPass t) ∧
      s.header.groupCount ≤ s.header.exitGroup := by
  have apart {t : TableId} (other : t ≠ .groups) : s.tableFailure t ≠ some s.exitFailure := fun fails =>
    other (SiteStore.tableFailure_of_G3 fails rfl).2.1
  simp only [List.forall_mem_cons, List.not_mem_nil, false_imp_iff, implies_true, and_true]
  constructor
  · intro fails
    obtain ⟨nodes, fails⟩ := findSome?_cons_of_ne fails (apart (by decide))
    obtain ⟨edges, fails⟩ := findSome?_cons_of_ne fails (apart (by decide))
    obtain ⟨adjacency, fails⟩ := findSome?_cons_of_ne fails (apart (by decide))
    obtain ⟨before, t, after, order, table, none⟩ := List.findSome?_eq_some_iff.mp fails
    obtain ⟨pass, rfl, exit, _⟩ := SiteStore.tableFailure_of_G3 table rfl
    exact ⟨⟨(SiteStore.tableFailure_eq_none_iff.mp nodes).1, (SiteStore.tableFailure_eq_none_iff.mp edges).1,
      (SiteStore.tableFailure_eq_none_iff.mp adjacency).1, pass⟩, exit⟩
  · rintro ⟨⟨nodes, edges, adjacency, groups⟩, exit⟩
    refine List.findSome?_eq_some_iff.mpr ⟨[.nodes, .edges, .adjacency], .groups, _, rfl, ?_, ?_⟩
    · rw [SiteStore.tableFailure_of_pass groups, if_pos ⟨rfl, exit⟩]
    · simp only [List.forall_mem_cons, List.not_mem_nil, false_imp_iff, implies_true, and_true,
        SiteStore.tableFailure_eq_none_iff]
      exact ⟨⟨nodes, nofun⟩, ⟨edges, nofun⟩, adjacency, nofun⟩

end

/-! ### What each check asks -/

/-- A filtered range is one number exactly when that number alone is in it. -/
theorem filter_range_eq_singleton_iff {p : Nat → Bool} {n i : Nat} :
    (List.range n).filter p = [i] ↔ ∀ m, m = i ↔ m < n ∧ p m = true := by
  have mem (m : Nat) : m ∈ (List.range n).filter p ↔ m < n ∧ p m = true := by rw [List.mem_filter, List.mem_range]
  simp only [← mem]
  constructor
  · intro single m
    rw [single, List.mem_singleton]
  · intro only
    refine List.perm_singleton.mp ((List.perm_ext_iff_of_nodup (List.nodup_range.filter _) (List.nodup_singleton i)).mpr ?_)
    intro m
    rw [List.mem_singleton, only m]

/-- Two different numbers alone are in a filtered range, when it is the list of them in one order or the other. -/
theorem filter_range_eq_pair_iff {p : Nat → Bool} {n i j : Nat} :
    (List.range n).filter p = [i, j] ∨ (List.range n).filter p = [j, i] ↔
      i ≠ j ∧ ∀ m, m = i ∨ m = j ↔ m < n ∧ p m = true := by
  have mem (m : Nat) : m ∈ (List.range n).filter p ↔ m < n ∧ p m = true := by rw [List.mem_filter, List.mem_range]
  have nodup : ((List.range n).filter p).Nodup := List.nodup_range.filter _
  simp only [← mem]
  constructor
  · rintro (pair | pair)
    · rw [pair] at nodup ⊢
      exact ⟨by simpa using nodup, by simp⟩
    · rw [pair] at nodup ⊢
      exact ⟨by simpa [eq_comm] using nodup, by simp [or_comm]⟩
  · rintro ⟨apart, only⟩
    have perm : ((List.range n).filter p).Perm [i, j] :=
      (List.perm_ext_iff_of_nodup nodup (by simpa using apart)).mpr fun m => by simp [← only m]
    obtain ⟨x, y, pair⟩ := List.length_eq_two.mp perm.length_eq
    have first := (only x).mpr (by simp [pair])
    have second := (only y).mpr (by simp [pair])
    have distinct : x ≠ y := by
      rw [pair] at nodup
      simpa using nodup
    rw [pair]
    simp only [List.cons.injEq, and_true]
    omega

section

variable (s : SiteStore) (i : Nat)

theorem Node.slice_iff (n : Node) (j : Nat) :
    n.slice j = true ↔ n.adjacencyStart ≤ j ∧ j < n.adjacencyStart + n.adjacencyCount := by
  simp [Node.slice]

theorem checkN1_iff : checkN1 s i = true ↔
    (s.nodeAt i).adjacencyStart + (s.nodeAt i).adjacencyCount ≤ s.header.adjacencyCount := by
  simp [checkN1]

theorem checkE1_iff : checkE1 s i = true ↔
    (s.edgeAt i).a < s.header.nodeCount ∧ (s.edgeAt i).b < s.header.nodeCount ∧ (s.edgeAt i).a ≠ (s.edgeAt i).b := by
  simp [checkE1, and_assoc]

theorem checkE2_iff_namings : checkE2 s i = true ↔ ∃ j k, (s.namings i = [j, k] ∨ s.namings i = [k, j]) ∧
    (s.nodeAt (s.edgeAt i).a).slice j = true ∧ (s.nodeAt (s.edgeAt i).b).slice k = true := by
  unfold checkE2
  constructor
  · intro check
    split at check
    next j k named =>
      simp only [Bool.or_eq_true, Bool.and_eq_true] at check
      rcases check with ⟨inA, inB⟩ | ⟨inA, inB⟩
      · exact ⟨j, k, .inl named, inA, inB⟩
      · exact ⟨k, j, .inr named, inA, inB⟩
    next => cases check
  · rintro ⟨j, k, named | named, inA, inB⟩
    · simp [named, inA, inB]
    · simp [named, inA, inB]

/-- E2: two entries name the edge, one in the slice of each endpoint. -/
theorem checkE2_iff : checkE2 s i = true ↔ ∃ j k, j ≠ k ∧ (s.nodeAt (s.edgeAt i).a).slice j = true ∧
    (s.nodeAt (s.edgeAt i).b).slice k = true ∧
    ∀ m, m = j ∨ m = k ↔ m < s.header.adjacencyCount ∧ s.adjacentAt m = i := by
  simp only [checkE2_iff_namings, SiteStore.namings, filter_range_eq_pair_iff, decide_eq_true_eq]
  refine exists_congr fun j => exists_congr fun k => ?_
  tauto

theorem checkE3_iff : checkE3 s i = true ↔
    ((s.edgeAt i).cls = .elevator → (s.edgeAt i).heading = none ∧ (s.edgeAt i).length = 0) ∧
      ((s.edgeAt i).cls ≠ .elevator → (s.edgeAt i).heading ≠ none) := by
  by_cases lift : (s.edgeAt i).cls = .elevator
  · simp [checkE3, lift]
  · simp [checkE3, lift, Option.isSome_iff_ne_none]

/-- E4: STAIRS, ESCALATOR and ELEVATOR change the floor, and the other classes do not. -/
theorem checkE4_iff : checkE4 s i = true ↔
    ((s.edgeAt i).cls = .stairs ∨ (s.edgeAt i).cls = .escalator ∨ (s.edgeAt i).cls = .elevator ↔
      (s.nodeAt (s.edgeAt i).a).floor ≠ (s.nodeAt (s.edgeAt i).b).floor) := by
  cases cls : (s.edgeAt i).cls <;> simp [checkE4, cls]

theorem checkE5_iff : checkE5 s i = true ↔
    ((s.edgeAt i).cls = .escalator ∨ (s.edgeAt i).cls = .travelator ↔ (s.edgeAt i).direction ≠ .both) := by
  by_cases moving : (s.edgeAt i).cls = .escalator ∨ (s.edgeAt i).cls = .travelator
  · simp [checkE5, moving]
  · simp [checkE5, moving]

theorem checkA1_iff : checkA1 s i = true ↔ s.adjacentAt i < s.header.edgeCount := decide_eq_true_iff

theorem checkA2_iff_slices : checkA2 s i = true ↔ ∃ n, s.slicesWith i = [n] ∧
    (n = (s.edgeAt (s.adjacentAt i)).a ∨ n = (s.edgeAt (s.adjacentAt i)).b) := by
  unfold checkA2
  constructor
  · intro check
    split at check
    next n only => exact ⟨n, only, by simpa using check⟩
    next => cases check
  · rintro ⟨n, only, ends⟩
    simpa [only] using ends

/-- A2: one node's slice holds the entry, and the node is an endpoint of the edge the entry names. -/
theorem checkA2_iff : checkA2 s i = true ↔
    ∃ n, (∀ m, m = n ↔ m < s.header.nodeCount ∧ (s.nodeAt m).slice i = true) ∧
      (n = (s.edgeAt (s.adjacentAt i)).a ∨ n = (s.edgeAt (s.adjacentAt i)).b) := by
  simp only [checkA2_iff_slices, SiteStore.slicesWith, filter_range_eq_singleton_iff]

theorem checkG1_iff : checkG1 s i = true ↔
    (s.groupAt i).memberStart + (s.groupAt i).memberCount ≤ s.header.memberCount := decide_eq_true_iff

theorem checkG2_iff : checkG2 s i = true ↔ ∀ j k, j < (s.groupAt i).memberCount → k < (s.groupAt i).memberCount → j ≠ k →
    (s.memberAt ((s.groupAt i).memberStart + j)).node ≠ (s.memberAt ((s.groupAt i).memberStart + k)).node := by
  refine decide_eq_true_iff.trans ?_
  rw [List.nodup_map_iff_inj_on List.nodup_range]
  simp only [List.mem_range]
  exact ⟨fun inj j k hj hk apart same => apart (inj j hj k hk same),
    fun apart j hj k hk same => by_contra fun ne => apart j k hj hk ne same⟩

theorem checkM1_iff : checkM1 s i = true ↔ (s.memberAt i).node < s.header.nodeCount := decide_eq_true_iff

theorem checkD1_iff : checkD1 s i = true ↔
    ((Table.get DirectoryEntry.cleared s.directory i).kind = .direct →
      (Table.get DirectoryEntry.cleared s.directory i).ref < s.header.nodeCount) ∧
    ((Table.get DirectoryEntry.cleared s.directory i).kind = .group →
      (Table.get DirectoryEntry.cleared s.directory i).ref < s.header.groupCount) := by
  cases kind : (Table.get DirectoryEntry.cleared s.directory i).kind <;> simp [checkD1, kind]

theorem checkP1_iff : checkP1 s i = true ↔ (i = 7 → (Table.get Profile.cleared s.profiles i).stairs = true) := by
  simp [checkP1, imp_iff_not_or]

theorem checkS1_iff : checkS1 s i = true ↔ ((Table.get Screen.cleared s.screens i).enabled = true →
    (Table.get Screen.cleared s.screens i).node < s.header.nodeCount) := by
  simp [checkS1, imp_iff_not_or]

theorem checkF1_iff : checkF1 s i = true ↔ ((s.channelAt i).enabled = true → (s.channelAt i).role = .follower →
    (s.channelAt (s.channelAt i).reference).enabled = true) := by
  simp [checkF1, imp_iff_not_or, or_assoc]

theorem checkF2_iff : checkF2 s i = true ↔ ((s.channelAt i).enabled = true → (s.channelAt i).role = .follower →
    (s.channelAt (s.channelAt i).reference).role = .reference) := by
  simp [checkF2, imp_iff_not_or, or_assoc]

theorem checkF3_iff : checkF3 s i = true ↔ ((s.channelAt i).enabled = true →
    (s.channelAt i).hysteresis < (s.channelAt i).ceiling) := by
  simp [checkF3, imp_iff_not_or]

theorem checkF4_iff : checkF4 s i = true ↔ ((s.channelAt i).enabled = true →
    (s.channelAt i).plateauSamples = 0 ∨ 0 < (s.channelAt i).settleBand) := by
  simp [checkF4, imp_iff_not_or, or_assoc]

theorem checkC1_iff (target : Target) (entry : (Table.get ScheduleEntry.cleared s.schedule i).target = target) :
    checkC1 s i = true ↔ (target.kind = .edge ∨ target.kind = .motion → target.index < s.header.edgeCount) := by
  unfold checkC1
  rw [entry]
  cases kind : target.kind <;> simp [kind]

theorem checkC2_iff (target : Target) (entry : (Table.get ScheduleEntry.cleared s.schedule i).target = target) :
    checkC2 s i = true ↔ (target.kind = .motion →
      (s.edgeAt target.index).cls = .escalator ∨ (s.edgeAt target.index).cls = .travelator) := by
  unfold checkC2
  rw [entry]
  simp [imp_iff_not_or, or_assoc]

variable {s i}

/-- A code stands for one check of its table. -/
theorem passes_iff {t : TableId} {code : CheckCode} {check : SiteStore → Nat → Bool} {P : Prop}
    (only : ∀ c, (code, c) ∈ t.checks ↔ c = check) (asks : check s i = true ↔ P) :
    (∀ c, (code, c) ∈ t.checks → c s i = true) ↔ P := by
  simp only [only, forall_eq, asks]

end

end Sys2Proof.Machine
end

section
open Sys2Proof Sys2Proof.Machine

/-- Settles O29: the first failure in the three orders, and each check as its rule states it. -/
theorem validationReportsTheEarliestFailure : Obligations.ValidationReportsTheEarliestFailure := by
  refine ⟨fun s => ⟨SiteStore.firstFailure_eq_none_iff, fun f => SiteStore.firstFailure_of_record⟩,
    fun s => SiteStore.firstFailure_eq_exitFailure_iff, fun s f => SiteStore.firstFailure_of_G3, rfl, rfl, fun s i => ?_⟩
  exact ⟨passes_iff (by simp [TableId.checks]) (checkN1_iff s i),
    passes_iff (by simp [TableId.checks]) (checkE1_iff s i),
    passes_iff (by simp [TableId.checks]) ((checkE2_iff s i).trans (by simp only [Node.slice_iff])),
    passes_iff (by simp [TableId.checks]) (checkE3_iff s i),
    passes_iff (by simp [TableId.checks]) (checkE4_iff s i),
    passes_iff (by simp [TableId.checks]) (checkE5_iff s i),
    passes_iff (by simp [TableId.checks]) (checkA1_iff s i),
    passes_iff (by simp [TableId.checks]) ((checkA2_iff s i).trans (by simp only [Node.slice_iff])),
    passes_iff (by simp [TableId.checks]) (checkG1_iff s i),
    passes_iff (by simp [TableId.checks]) (checkG2_iff s i),
    passes_iff (by simp [TableId.checks]) (checkM1_iff s i),
    passes_iff (by simp [TableId.checks]) (checkD1_iff s i),
    passes_iff (by simp [TableId.checks]) (checkP1_iff s i),
    passes_iff (by simp [TableId.checks]) (checkS1_iff s i),
    passes_iff (by simp [TableId.checks]) (checkF1_iff s i),
    passes_iff (by simp [TableId.checks]) (checkF2_iff s i),
    passes_iff (by simp [TableId.checks]) (checkF3_iff s i),
    passes_iff (by simp [TableId.checks]) (checkF4_iff s i),
    passes_iff (by simp [TableId.checks]) (checkC1_iff s i _ rfl),
    passes_iff (by simp [TableId.checks]) (checkC2_iff s i _ rfl)⟩

end
